-- ==== Sys2Proof/Word.lean ====
section
/-! DEFINITION. The words of the block: bytes, 16-bit fields and byte strings (00_scope.md R8). -/

namespace Sys2Proof

/-- R8: "A byte is an unsigned 8-bit value". -/
abbrev Byte := BitVec 8

/-- A 16-bit unsigned field: `Screen`, `Index`, `ControlWord`, `TextLen`, `PBC` (R51). -/
abbrev Half := BitVec 16

/-- R8: a byte string, a finite sequence of bytes indexed from 0. -/
abbrev Bytes := List Byte

end Sys2Proof
end

