-- ==== Sys2Proof/Config.lean ====
section
/-! DEFINITION. The implementation parameters of R7, and the transport kinds of R26.

The spec leaves no value free ("Nothing in the spec is left as `any value`", 93_implementation_defined.md
part 1), so this file holds no opaque constant. -/

namespace Sys2Proof

/-- R26: the transport kind of a unit; `CFG` codes it 0 = `stream`, 1 = `datagram`. -/
inductive TransportKind where
  | stream
  | datagram
  deriving DecidableEq, Repr

namespace Config

/-- R7 `MAX_TEXT`: the largest text length in bytes that `ENCODE` accepts. -/
def maxText : Nat := 2048

/-- R7 `MIN_PACKET`: the shortest byte string `DECODE` does not reject as `TooShort`. -/
def minPacket : Nat := 6

/-- R7 `MSG_HDR`: the bytes of a message header (index and control word). -/
def msgHdr : Nat := 4

/-- R7 `MSG_FIXED`: the bytes of a message before its text. -/
def msgFixed : Nat := 6

/-- R7 `PKT_FIXED`: the bytes of a packet before its first message. -/
def pktFixed : Nat := 6

/-- R7 `PBC_MAX`: the largest packet byte count the 2-byte field can hold. -/
def pbcMax : Nat := 65535

/-- R7 `ESC`: the byte that is doubled by stuffing and that opens the start marker. -/
def esc : Byte := 0xFE

/-- R7 `STX`: the second byte of the start marker. -/
def stx : Byte := 0x02

/-- R7 `MARKER`: the 2-byte start marker. -/
def marker : Bytes := [esc, stx]

/-- R7 `RXBUF_CAP`, default: none, unbounded (D16). A machine holds its own value in `State.rxbufCap`. -/
def rxbufCapDefault : Option Nat := none

/-- The input `cfg_tx_kind` at `State.reset`. DESIGN CHOICE, unsafe (log 3): the host must drive the pin
and the spec gives it no default. -/
def resetTxKind : TransportKind := .stream

/-- The input `cfg_rx_kind` at `State.reset`. DESIGN CHOICE, unsafe (log 3). -/
def resetRxKind : TransportKind := .stream

end Config

end Sys2Proof
end

