-- ==== Sys2Proof/Syntax.lean ====
section
/-! DEFINITION. The value types (10_state.md R21, R22), the instructions (one constructor per row of
`spec/opcode_table.json`), and the transfers on the block's input ports (R32). -/

namespace Sys2Proof

/-- R22: "one addressable display-line update within a packet". The text's length is no stored field. -/
structure DisplayMessage where
  index : Half
  controlWord : Half
  text : Bytes
  deriving DecidableEq, Repr

/-- R21: "the unit of application data". -/
structure Packet where
  version : Byte
  flags : Byte
  screen : Half
  messages : List DisplayMessage
  deriving DecidableEq, Repr

/-- One constructor per row of the opcode table: the sixteen command codes of R80 (an operation is its
mnemonic followed by its operand, R84), the four wire layouts of R71, R72, R75 and R76, and the four
stream tokens of R78. -/
inductive Instr where
  /-- `RESERVED_0`, cmd `0x0`, R83. -/
  | reserved0
  /-- `ENCODE p`, cmd `0x1`, R100. -/
  | encode (p : Packet)
  /-- `DECODE b`, cmd `0x2`, R102. -/
  | decode (b : Bytes)
  /-- `FRAME b`, cmd `0x3`, R131. -/
  | frame (b : Bytes)
  /-- `DEFRAME b, eos`, cmd `0x4`, R135. -/
  | deframe (b : Bytes) (eos : Bool)
  /-- `TX_SEND b`, cmd `0x5`, R160. -/
  | txSend (b : Bytes)
  /-- `RX_PUSH c`, cmd `0x6`, R161. -/
  | rxPush (c : Bytes)
  /-- `RX_DRAIN`, cmd `0x7`, R162. -/
  | rxDrain
  /-- `RX_EOS`, cmd `0x8`, R163. -/
  | rxEos
  /-- `RX_DGRAM d`, cmd `0x9`, R164. -/
  | rxDgram (d : Bytes)
  /-- `RX_ABORT`, cmd `0xA`, R165. -/
  | rxAbort
  /-- `BRIGHTNESS cw`, cmd `0xB`, R104. -/
  | brightness (cw : Half)
  /-- `LEFTTALLY cw`, cmd `0xC`, R105. -/
  | leftTally (cw : Half)
  /-- `TEXTTALLY cw`, cmd `0xD`, R106. -/
  | textTally (cw : Half)
  /-- `RIGHTTALLY cw`, cmd `0xE`, R107. -/
  | rightTally (cw : Half)
  /-- `ISCONTROLDATA cw`, cmd `0xF`, R108. -/
  | isControlData (cw : Half)
  /-- `PACKET_FIXED`, the 6 fixed bytes of a packet image, R71. -/
  | packetFixed (pbc : Half) (version flags : Byte) (screen : Half)
  /-- `MESSAGE_FIXED`, the 6 fixed bytes of a message, R72. -/
  | messageFixed (index controlWord textLen : Half)
  /-- `CONTROL_WORD`, the 16-bit field of R75. -/
  | controlWord (cw : Half)
  /-- `FLAGS`, the flags byte of R76. -/
  | flags (f : Byte)
  /-- `SOF`, the stream token `FE 02`, R78. -/
  | sof
  /-- `ESC_FE`, the stream token `FE FE`, R78. -/
  | escFe
  /-- `LIT x`, the stream token of one byte `x ≠ FE`, R78. -/
  | lit (x : Byte)
  /-- `LONE_FE`, the one-byte stream token `FE` whose follower is neither `FE` nor `02`, R78. -/
  | loneFe
  deriving DecidableEq, Repr

/-- The wire layouts of the opcode table that are no command and no token. -/
inductive Layout where
  | packetFixed
  | messageFixed
  | controlWord
  | flags
  deriving DecidableEq, Repr

/-- One transfer on an input of the block. R32 lists the ports; DESIGN CHOICE (log 1): the transfers of
all inputs stand in one list, in the order in which the host makes them. -/
inductive Beat where
  /-- R32(a): a code on the command port `cmd[3:0]`. -/
  | cmd (code : BitVec 4)
  /-- R32(b): one byte of a byte string; `last` marks the final byte of the string. -/
  | data (d : Byte) (last : Bool)
  /-- R32(b): the empty string, "a transfer with `last` and no data". -/
  | emptyString
  /-- The second operand of `DEFRAME`, one bit (R80, R135). -/
  | eosBit (e : Bool)
  /-- R32(c): the header of a packet operand; `last_message` is set when there is no message. -/
  | header (version flags : Byte) (screen : Half) (lastMessage : Bool)
  /-- R32(c): the fields of one message, before its text; `last_message` marks the final message. -/
  | message (index controlWord : Half) (lastMessage : Bool)
  /-- The 16-bit control-word operand of an accessor (R80). -/
  | word (cw : Half)
  /-- One byte of the wire stream that reaches the RX unit (R50(d)), where the tokens of R78 are read. -/
  | wire (b : Byte)
  /-- One byte of a wire layout, lowest offset first (R53, R56). -/
  | image (l : Layout) (b : Byte)
  /-- R32(e), R220: `rst` asserted, with the inputs `cfg_tx_kind` and `cfg_rx_kind`. -/
  | rst (txKind rxKind : TransportKind)
  deriving DecidableEq, Repr

end Sys2Proof
end

