-- ==== Sys2Proof/WellFormed.lean ====
section
/-! DEFINITION. Which instructions are well formed: what their fields' types do not already say. -/

namespace Sys2Proof

/-- R78: the token `LIT x` is "one byte `x ≠ FE`". Every other row admits every value of its fields: the
codec validates none on the way in (R81, R111), and the limits of `ENCODE` are error results, not
ill-formed operands (R100). -/
def Instr.wellFormed : Instr → Bool
  | .lit x => x != Config.esc
  | .reserved0 | .encode _ | .decode _ | .frame _ | .deframe _ _ | .txSend _ | .rxPush _ | .rxDrain
  | .rxEos | .rxDgram _ | .rxAbort | .brightness _ | .leftTally _ | .textTally _ | .rightTally _
  | .isControlData _ | .packetFixed _ _ _ _ | .messageFixed _ _ _ | .controlWord _ | .flags _
  | .sof | .escFe | .loneFe => true

end Sys2Proof
end

