-- ==== Sys2Proof/Decode.lean ====
section
/-! DEFINITION. Reading an instruction from the input ports, total and rejecting by name; writing it back;
and the primitives of byte order (R9, R52).

Three encodings meet here (R70): command codes with their operand (R80, R32), the wire layouts (R71, R72,
R75, R76) and the stream tokens (R78). The packet codec itself (`ENCODE`, `DECODE`) is not this decoder: it
is in Machine/Image.lean. -/

namespace Sys2Proof

/-! ## Byte order -/

/-- R9, R52: `le16(v) = [v[7:0], v[15:8]]`. -/
def le16 (v : Half) : Bytes := [v.extractLsb' 0 8, v.extractLsb' 8 8]

/-- R9: `rd8(b, o)`, defined only when `o < len(b)`. No rule reads outside the string (R65); the 0 that
stands for such a read here is never used (log 19). -/
def rd8 (b : Bytes) (o : Nat) : Byte := b.getD o 0

/-- R9, R52: `rd16(b, o) = b[o] + 256 × b[o+1]`, defined only when `o + 2 ≤ len(b)` (log 19). -/
def rd16 (b : Bytes) (o : Nat) : Half := rd8 b (o + 1) ++ rd8 b o

/-! ## Why no instruction is read -/

/-- Why the ports hold no instruction to run. -/
inductive DecodeError where
  /-- Nothing stands on the ports, or the transfer of an operand has not ended (R6: an operation "takes its
  whole operand"). The block waits (R208). -/
  | incomplete
  /-- The last byte on the wire is an `FE` with nothing behind it: "no token yet: one more byte is needed"
  (R78). The block waits. -/
  | pendingFe
  /-- `rst` is asserted before the transfer has ended: the operation "is abandoned without a result" (R220). -/
  | abandoned
  /-- A transfer that no command of R80 has at this place: an operand of the wrong kind, an operand with no
  command before it, a string with an end inside it. The spec is silent on it (log 13). -/
  | malformed
  deriving DecidableEq, Repr

/-- The error when the transfer that is due does not stand first on the ports. -/
def transferError : List Beat → DecodeError
  | [] => .incomplete
  | .rst _ _ :: _ => .abandoned
  | _ => .malformed

/-! ## Operands -/

/-- The bytes of a string up to its `last` mark (R32(b)). -/
def takeData : List Beat → Except DecodeError (Bytes × List Beat)
  | .data d true :: r => .ok ([d], r)
  | .data d false :: r => (takeData r).map fun p => (d :: p.1, p.2)
  | bs => .error (transferError bs)

/-- A byte-string operand (R32(b)): the empty string is one transfer of its own. -/
def takeString : List Beat → Except DecodeError (Bytes × List Beat)
  | .emptyString :: r => .ok ([], r)
  | bs => takeData bs

/-- The `eos` operand of `DEFRAME` (R135). -/
def takeEos : List Beat → Except DecodeError (Bool × List Beat)
  | .eosBit e :: r => .ok (e, r)
  | bs => .error (transferError bs)

/-- The control-word operand of an accessor (R80). -/
def takeWord : List Beat → Except DecodeError (Half × List Beat)
  | .word cw :: r => .ok (cw, r)
  | bs => .error (transferError bs)

/-- The messages of a packet operand up to the one marked `last_message` (R32(c)). The first argument bounds
the number of messages; with the number of transfers as the bound it is never used up. -/
def takeMessages : Nat → List Beat → Except DecodeError (List DisplayMessage × List Beat)
  | n + 1, .message i c last :: r =>
    match takeString r with
    | .error e => .error e
    | .ok (t, r') =>
      if last then .ok ([⟨i, c, t⟩], r')
      else (takeMessages n r').map fun p => (⟨i, c, t⟩ :: p.1, p.2)
  | _, bs => .error (transferError bs)

/-- A packet operand (R32(c)): "an empty `messages` sequence is a header with `last_message` and no message". -/
def takePacket : List Beat → Except DecodeError (Packet × List Beat)
  | .header v f s true :: r => .ok (⟨v, f, s, []⟩, r)
  | .header v f s false :: r => (takeMessages r.length r).map fun p => (⟨v, f, s, p.1⟩, p.2)
  | bs => .error (transferError bs)

/-- The given number of bytes of one wire layout. -/
def takeImage (l : Layout) : Nat → List Beat → Except DecodeError (Bytes × List Beat)
  | 0, bs => .ok ([], bs)
  | n + 1, .image l' b :: r =>
    if l' = l then (takeImage l n r).map fun p => (b :: p.1, p.2) else .error .malformed
  | _ + 1, bs => .error (transferError bs)

/-! ## The three encodings -/

/-- R80: the command codes, each with the operand its row names. -/
def decodeCommand (code : BitVec 4) (r : List Beat) : Except DecodeError (Instr × List Beat) :=
  match code.toNat with
  | 0x0 => .ok (.reserved0, r)
  | 0x1 => (takePacket r).map fun p => (.encode p.1, p.2)
  | 0x2 => (takeString r).map fun p => (.decode p.1, p.2)
  | 0x3 => (takeString r).map fun p => (.frame p.1, p.2)
  | 0x4 => match takeString r with
    | .error e => .error e
    | .ok (b, r') => (takeEos r').map fun p => (.deframe b p.1, p.2)
  | 0x5 => (takeString r).map fun p => (.txSend p.1, p.2)
  | 0x6 => (takeString r).map fun p => (.rxPush p.1, p.2)
  | 0x7 => .ok (.rxDrain, r)
  | 0x8 => .ok (.rxEos, r)
  | 0x9 => (takeString r).map fun p => (.rxDgram p.1, p.2)
  | 0xA => .ok (.rxAbort, r)
  | 0xB => (takeWord r).map fun p => (.brightness p.1, p.2)
  | 0xC => (takeWord r).map fun p => (.leftTally p.1, p.2)
  | 0xD => (takeWord r).map fun p => (.textTally p.1, p.2)
  | 0xE => (takeWord r).map fun p => (.rightTally p.1, p.2)
  | _ /- 0xF, the only code left -/ => (takeWord r).map fun p => (.isControlData p.1, p.2)

/-- R78: the token that begins with the wire byte `b`, `r` being what stands behind it. The byte after an `FE`
is looked at; after a `LONE_FE` it is not consumed. An `FE` behind which no further wire byte stands but
another transfer does is taken as the one-byte pattern (log 8). -/
def decodeToken (b : Byte) (r : List Beat) : Except DecodeError (Instr × List Beat) :=
  if b ≠ Config.esc then .ok (.lit b, r)
  else match r with
    | [] => .error .pendingFe
    | .rst _ _ :: _ => .error .abandoned
    | .wire y :: r' =>
      if y = Config.esc then .ok (.escFe, r')
      else if y = Config.stx then .ok (.sof, r')
      else .ok (.loneFe, r)
    | _ => .ok (.loneFe, r)

/-- The number of bytes of a wire layout (R71, R72, R75, R76). -/
def Layout.size : Layout → Nat
  | .packetFixed => Config.pktFixed
  | .messageFixed => Config.msgFixed
  | .controlWord => 2
  | .flags => 1

/-- R71, R72, R74 to R76: the fields of a wire layout, from its bytes. -/
def layoutInstr (l : Layout) (b : Bytes) : Instr :=
  match l with
  | .packetFixed => .packetFixed (rd16 b 0) (rd8 b 2) (rd8 b 3) (rd16 b 4)
  | .messageFixed => .messageFixed (rd16 b 0) (rd16 b 2) (rd16 b 4)
  | .controlWord => .controlWord (rd16 b 0)
  | .flags => .flags (rd8 b 0)

/-- The instruction that stands first on the input ports, and what stands behind it. -/
def decodePort : List Beat → Except DecodeError (Instr × List Beat)
  | .cmd code :: r => decodeCommand code r
  | .wire b :: r => decodeToken b r
  | .image l b :: r => (takeImage l l.size (.image l b :: r)).map fun p => (layoutInstr l p.1, p.2)
  | bs => .error (transferError bs)

/-- The first assertion of `rst` on the ports: the configuration inputs it samples, and what stands behind it. -/
def firstReset : List Beat → Option (TransportKind × TransportKind × List Beat)
  | [] => none
  | .rst tx rx :: r => some (tx, rx, r)
  | _ :: r => firstReset r

/-! ## The encoder -/

/-- R32(b): a byte string as transfers, lowest index first. -/
def encodeString : Bytes → List Beat
  | [] => [.emptyString]
  | [d] => [.data d true]
  | d :: e :: r => .data d false :: encodeString (e :: r)

/-- R32(c): the messages of a packet operand as transfers. -/
def encodeMessages : List DisplayMessage → List Beat
  | [] => []
  | [m] => .message m.index m.controlWord true :: encodeString m.text
  | m :: n :: ms =>
    .message m.index m.controlWord false :: (encodeString m.text ++ encodeMessages (n :: ms))

/-- R32(c): a packet operand as transfers. -/
def encodePacketOperand (p : Packet) : List Beat :=
  .header p.version p.flags p.screen p.messages.isEmpty :: encodeMessages p.messages

/-- The bytes of a wire layout as transfers. -/
def encodeImage (l : Layout) (b : Bytes) : List Beat := b.map (.image l)

/-- The transfers of an instruction (R80 with R32; R71, R72, R75, R76; R78). -/
def encodePort : Instr → List Beat
  | .reserved0 => [.cmd 0x0]
  | .encode p => .cmd 0x1 :: encodePacketOperand p
  | .decode b => .cmd 0x2 :: encodeString b
  | .frame b => .cmd 0x3 :: encodeString b
  | .deframe b eos => .cmd 0x4 :: (encodeString b ++ [.eosBit eos])
  | .txSend b => .cmd 0x5 :: encodeString b
  | .rxPush c => .cmd 0x6 :: encodeString c
  | .rxDrain => [.cmd 0x7]
  | .rxEos => [.cmd 0x8]
  | .rxDgram d => .cmd 0x9 :: encodeString d
  | .rxAbort => [.cmd 0xA]
  | .brightness cw => [.cmd 0xB, .word cw]
  | .leftTally cw => [.cmd 0xC, .word cw]
  | .textTally cw => [.cmd 0xD, .word cw]
  | .rightTally cw => [.cmd 0xE, .word cw]
  | .isControlData cw => [.cmd 0xF, .word cw]
  | .packetFixed pbc v f s => encodeImage .packetFixed (le16 pbc ++ [v, f] ++ le16 s)
  | .messageFixed i c t => encodeImage .messageFixed (le16 i ++ le16 c ++ le16 t)
  | .controlWord cw => encodeImage .controlWord (le16 cw)
  | .flags f => encodeImage .flags [f]
  | .sof => [.wire Config.esc, .wire Config.stx]
  | .escFe => [.wire Config.esc, .wire Config.esc]
  | .lit x => [.wire x]
  | .loneFe => [.wire Config.esc]

/-- What must stand behind an instruction's transfers for the ports to be read as that instruction: R78 lets
the follower of an `FE` decide the token, every other instruction is read whatever follows. -/
def followerAllowed (i : Instr) (r : List Beat) : Bool :=
  match i, r with
  | .loneFe, [] => false
  | .loneFe, .rst _ _ :: _ => false
  | .loneFe, .wire y :: _ => y != Config.esc && y != Config.stx
  | _, _ => true

/-! ## The rows of the opcode table, read as numbers -/

/-- An operand of zeros for a command code: what follows the code when the host gives the row's bits only. -/
def zeroOperand (code : Nat) : List Beat :=
  if code = 0x1 then [.header 0 0 0 true]
  else if code = 0x4 then [.emptyString, .eosBit false]
  else if code ∈ [0x2, 0x3, 0x5, 0x6, 0x9] then [.emptyString]
  else if 0xB ≤ code ∧ code ≤ 0xF then [.word 0]
  else []

/-- The transfers of a table row's bits `w` (log 9). Rows of at most 8 bits: a command code when the upper
bits are 0, else a wire byte (an `FE` with the zero byte behind it as its follower). Rows of
16 bits: a token whose pattern is written first byte first (R86), else a control word, low byte first.
Wider rows: the fixed part of a packet, byte 0 in the lowest bits. -/
def tableBeats (nbits w : Nat) : List Beat :=
  if nbits ≤ 8 then
    if w < 16 then .cmd (BitVec.ofNat 4 w) :: zeroOperand w
    else if w = 0xFE then [.wire Config.esc, .wire 0]
    else [.wire (BitVec.ofNat 8 w)]
  else if nbits ≤ 16 then
    if w = 0xFE02 ∨ w = 0xFEFE then [.wire (BitVec.ofNat 8 (w / 256)), .wire (BitVec.ofNat 8 w)]
    else encodeImage .controlWord (le16 (BitVec.ofNat 16 w))
  else encodeImage .packetFixed ((List.range Config.pktFixed).map fun k => BitVec.ofNat 8 (w / 256 ^ k))

/-- The instruction this decoder reads from a table row's bits. -/
def decodeTableWord (nbits w : Nat) : Option Instr :=
  match decodePort (tableBeats nbits w) with
  | .ok (i, _) => some i
  | .error _ => none

end Sys2Proof
end

