-- ==== Sys2Proof/Machine/State.lean ====
section
/-! DEFINITION. The machine's state as plain data, the reasons a step can stop, and reset.

10_state.md R26 to R35 name the state; R33 and R220 give its reset values. -/

namespace Sys2Proof.Machine

/-- R190: the error kinds. `connectionFailure` is set aside for the host and never produced by this block (R197). -/
inductive ErrorKind where
  | textTooLong
  | tooShort
  | lengthMismatch
  | truncated
  | unsupportedControlData
  | packetTooLong
  | connectionFailure
  deriving DecidableEq, Repr

/-- What `DECODE` answers: "`ok(Packet)` or `error(Kind)`" (R30, R102). -/
inductive DecodeResult where
  | ok (p : Packet)
  | error (k : ErrorKind)
  deriving DecidableEq, Repr

/-- What `ENCODE` answers: a packet image or one error kind (R100). -/
inductive EncodeResult where
  | ok (image : Bytes)
  | error (k : ErrorKind)
  deriving DecidableEq, Repr

/-- R30: one receive record, the pair `(raw, result)`. -/
structure RxRecord where
  raw : Bytes
  result : DecodeResult
  deriving DecidableEq, Repr

/-- R137: the scan state of the byte-serial de-framer. -/
inductive Scan where
  | hunt0
  | hunt1
  | body0
  | body1
  deriving DecidableEq, Repr

/-- R31(b), R137: the scan state and the partly un-stuffed payload `acc` of the frame in progress. -/
structure Serial where
  scan : Scan
  acc : Bytes
  deriving DecidableEq, Repr

/-- R137: "The reset state is `HUNT0` with `acc = []`." -/
def Serial.reset : Serial := ⟨.hunt0, []⟩

/-- R135: the triple `(payload, rest, found)`. -/
structure Deframed where
  payload : Bytes
  rest : Bytes
  found : Bool
  deriving DecidableEq, Repr

/-- The result of one accepted command, as it stands on the result port (R32(d), R80). -/
inductive Response where
  /-- Status `OK` and no value: `TX_SEND`, `RX_PUSH`, `RX_EOS`, `RX_DGRAM`, `RX_ABORT`, the stream tokens. -/
  | done
  /-- A byte string: `ENCODE`, `FRAME`. -/
  | bytes (b : Bytes)
  /-- A packet: `DECODE`. -/
  | packet (p : Packet)
  /-- The triple of `DEFRAME`. -/
  | deframed (d : Deframed)
  /-- The `found` bit of `RX_DRAIN`. -/
  | found (f : Bool)
  /-- A 2-bit field of a control word. -/
  | field2 (v : BitVec 2)
  /-- A 1-bit field of a control word. -/
  | field1 (v : BitVec 1)
  /-- One error kind in place of a result (R10). -/
  | error (k : ErrorKind)
  /-- The fields of a packet's fixed part, and the image length its PBC declares (R71, R73). -/
  | packetFields (pbc : Half) (version flags : Byte) (screen : Half) (imageLength : Nat)
  /-- The fields of a message's fixed part, and its length with its text (R72, R56). -/
  | messageFields (index controlWord textLen : Half) (messageLength : Nat)
  /-- The fields of a control word, bit 15 first (R75). -/
  | controlFields (controlData : BitVec 1) (unnamed : BitVec 7) (brightness left text right : BitVec 2)
  /-- The fields of the flags byte: the unnamed bits 7 to 1 and the text-encoding bit 0 (R76). -/
  | flagsFields (unnamed : BitVec 7) (textEncoding : BitVec 1)
  deriving DecidableEq, Repr

/-- The whole state. `response` and `port` are the model's own fields: the result port and the input ports
of R32 (log 1, log 2). -/
structure State where
  /-- R26 `CFG.TX_KIND`. -/
  txKind : TransportKind
  /-- R26 `CFG.RX_KIND`. -/
  rxKind : TransportKind
  /-- R7 `RXBUF_CAP`, the parameter of the instance: none is unbounded. No operation changes it. -/
  rxbufCap : Option Nat
  /-- R27 `RXBUF`. -/
  rxbuf : Bytes
  /-- R28 `RX_EOS`. -/
  rxEos : Bool
  /-- R30 `TXOUT`, the write units the TX unit has emitted. -/
  txout : List Bytes
  /-- R30 `RXOUT`, the receive records the RX unit has delivered. -/
  rxout : List RxRecord
  /-- R31(a): the encoder's staging store. -/
  staging : Bytes
  /-- R31(b), R137: the scan state of the byte-serial de-framer and its accumulator. -/
  serial : Serial
  /-- R32(d): the result of the last accepted command; none when there was none since reset. -/
  response : Option Response
  /-- R32: the transfers that stand on the input ports, in the order in which the host makes them. -/
  port : List Beat
  deriving DecidableEq, Repr

/-- The block has no fault: "There is no process-fatal error path inside the core" (R202), "The block has no
traps" (60_exceptions.md). Nobody raises one, so the type has no constructor; that is safe, since the error
kinds of R190 are results and the refusals of R10 are refusals. -/
inductive Fault where
  deriving DecidableEq, Repr

/-- Why a command is refused (R10): "The operation has no step in the present state"; nothing changes and
nothing is reported. -/
inductive Refusal where
  /-- An instruction without a meaning. No arm of `exec` raises it. Safe: the machine stops. -/
  | notModelled (mnemonic : String)
  /-- Raised by command code `0x0` (R83). Safe: the spec gives the command no transition. -/
  | reservedCommand
  /-- Raised by a stream command in datagram mode and by `RX_DGRAM` in stream mode (R168). Safe: the spec
  gives the command no transition there. -/
  | wrongTransportKind
  /-- Raised when bytes are pushed while `RX_EOS` is 1 (R161). Safe: the spec gives no transition. -/
  | streamEnded
  /-- Raised when the bytes pushed would exceed `RXBUF_CAP` (R161). Safe: the spec gives no transition. -/
  | bufferFull
  /-- Raised by the step when the transfers on the ports are no command's (log 13). Safe: the machine stops. -/
  | malformedTransfer
  deriving DecidableEq, Repr

/-- R33, R220: the state reset leaves, `CFG` loaded from the two configuration inputs. The capacity is a
parameter of the instance and is kept; the input ports hold what the host has put there. -/
def State.resetWith (tx rx : TransportKind) (cap : Option Nat) (port : List Beat) : State where
  txKind := tx
  rxKind := rx
  rxbufCap := cap
  rxbuf := []
  rxEos := false
  txout := []
  rxout := []
  staging := []
  serial := Serial.reset
  response := none
  port := port

/-- The machine right after reset, with both configuration inputs at 0 = `stream` and an unbounded receive
buffer. DESIGN CHOICE, unsafe (log 3): the host must drive the two inputs. Nothing stands on the ports. -/
def State.reset : State :=
  State.resetWith Config.resetTxKind Config.resetRxKind Config.rxbufCapDefault []

end Sys2Proof.Machine
end

