-- ==== Sys2Proof/Machine/Escape.lean ====
section
/-! DEFINITION. The frame transport as functions of their operands (41_framing.md R130 to R137): stuffing,
un-stuffing, the two scans, `DEFRAME`, its single-pass form and its byte-serial form. -/

namespace Sys2Proof.Machine

/-- R130: every byte is copied, every `FE` twice. -/
def stuff : Bytes → Bytes
  | [] => []
  | x :: r => (if x = Config.esc then [Config.esc, Config.esc] else [x]) ++ stuff r

/-- R131: the start marker, then the stuffed image; no end marker. -/
def frameBytes (b : Bytes) : Bytes := Config.marker ++ stuff b

/-- R132: "a 0xFE byte followed immediately by another 0xFE collapses to a single 0xFE"; any other byte, a
lone `FE` among them, is copied. Pairs are taken from the left. -/
def unstuff : Bytes → Bytes
  | [] => []
  | [x] => [x]
  | x :: y :: r =>
    if x = Config.esc ∧ y = Config.esc then Config.esc :: unstuff r else x :: unstuff (y :: r)

/-- R133: the index of the first byte pair `FE 02`, a literal scan at every position. -/
def firstMarker : Bytes → Option Nat
  | [] => none
  | [_] => none
  | x :: y :: r =>
    if x = Config.esc ∧ y = Config.stx then some 0 else (firstMarker (y :: r)).map (· + 1)

/-- R134: the three results of the boundary scan. -/
inductive Boundary where
  /-- The next frame's start marker begins here. -/
  | marker (e : Nat)
  /-- The buffer ends in an `FE` here, whose token cannot be told without the next byte. -/
  | pending (e : Nat)
  /-- The buffer ran out on a token boundary. -/
  | atEnd (n : Nat)
  deriving DecidableEq, Repr

/-- R134: the scan from index `j`, the second operand being the bytes from that index on. It reads the tokens
of R78, so the second `FE` of a pair never opens a marker. -/
def boundaryFrom (j : Nat) : Bytes → Boundary
  | [] => .atEnd j
  | [x] => if x = Config.esc then .pending j else .atEnd (j + 1)
  | x :: y :: r =>
    if x ≠ Config.esc then boundaryFrom (j + 1) (y :: r)
    else if y = Config.esc then boundaryFrom (j + 2) r
    else if y = Config.stx then .marker j
    else boundaryFrom (j + 1) (y :: r)

/-- R134: `boundary(buf, start)`, for `start ≤ len(buf)`; beyond that, which no meaning reaches, it answers
`end` at `start`. DESIGN CHOICE (log 25). -/
def boundary (buf : Bytes) (start : Nat) : Boundary := boundaryFrom start (buf.drop start)

/-- R135: `DEFRAME buf, eos`. -/
def deframeBytes (buf : Bytes) (eos : Bool) : Deframed :=
  match firstMarker buf with
  | none => ⟨[], buf, false⟩
  | some s =>
    match boundary buf (s + 2) with
    | .marker e => ⟨unstuff ((buf.take e).drop (s + 2)), buf.drop e, true⟩
    | .pending _ | .atEnd _ =>
      if eos then ⟨unstuff (buf.drop (s + 2)), [], true⟩ else ⟨[], buf, false⟩

/-! ## The single-pass form -/

/-- R136: the loop, from the bytes still to be read and the payload built so far; none when the frame is not
yet bounded. -/
def singlePassLoop (eos : Bool) : Bytes → Bytes → Option (Bytes × Bytes)
  | [], out => if eos then some (out, []) else none
  | [x], out =>
    if x ≠ Config.esc then (if eos then some (out ++ [x], []) else none)
    else if eos then some (out ++ [Config.esc], []) else none
  | x :: y :: r, out =>
    if x ≠ Config.esc then singlePassLoop eos (y :: r) (out ++ [x])
    else if y = Config.esc then singlePassLoop eos r (out ++ [Config.esc])
    else if y = Config.stx then some (out, x :: y :: r)
    else singlePassLoop eos (y :: r) (out ++ [Config.esc])

/-- R136: `DEFRAME1`. -/
def deframeSinglePass (buf : Bytes) (eos : Bool) : Deframed :=
  match firstMarker buf with
  | none => ⟨[], buf, false⟩
  | some s =>
    match singlePassLoop eos (buf.drop (s + 2)) [] with
    | some (out, rest) => ⟨out, rest, true⟩
    | none => ⟨[], buf, false⟩

/-! ## The byte-serial form -/

/-- R137: one input byte. The second component is the payload emitted, if any. -/
def Serial.byte (m : Serial) (x : Byte) : Serial × Option Bytes :=
  match m.scan with
  | .hunt0 => if x = Config.esc then (⟨.hunt1, m.acc⟩, none) else (m, none)
  | .hunt1 =>
    if x = Config.esc then (m, none)
    else if x = Config.stx then (⟨.body0, []⟩, none)
    else (⟨.hunt0, m.acc⟩, none)
  | .body0 => if x = Config.esc then (⟨.body1, m.acc⟩, none) else (⟨.body0, m.acc ++ [x]⟩, none)
  | .body1 =>
    if x = Config.esc then (⟨.body0, m.acc ++ [Config.esc]⟩, none)
    else if x = Config.stx then (⟨.body0, []⟩, some m.acc)
    else (⟨.body0, m.acc ++ [Config.esc, x]⟩, none)

/-- R137: the input `eos`. -/
def Serial.eos (m : Serial) : Serial × Option Bytes :=
  match m.scan with
  | .hunt0 => (m, none)
  | .hunt1 => (⟨.hunt0, m.acc⟩, none)
  | .body0 => (⟨.hunt0, []⟩, some m.acc)
  | .body1 => (⟨.hunt0, []⟩, some (m.acc ++ [Config.esc]))

/-- R137: the machine over a byte string: its state after it and the payloads it emitted, in order. -/
def Serial.run (m : Serial) : Bytes → Serial × List Bytes
  | [] => (m, [])
  | x :: r => (((m.byte x).1.run r).1, (m.byte x).2.toList ++ ((m.byte x).1.run r).2)

/-- R31(b), R137: "the scan state is a function of `RXBUF`", the byte-serial machine over all of it. -/
def Serial.ofBuffer (buf : Bytes) : Serial := (Serial.reset.run buf).1

/-- R78, R137: the payload the frame in progress would have if the stream ended here: an `FE` still pending
counts as one literal byte. -/
def Serial.payload (m : Serial) : Bytes :=
  if m.scan = .body1 then m.acc ++ [Config.esc] else m.acc

end Sys2Proof.Machine
end

