-- ==== Sys2Proof/Machine/Flags.lean ====
section
/-! DEFINITION. The bit fields of the control word (R75), the flags byte (R76) and `CFG` (R26); the tally
colours (R23); the status codes (R190).

The block "has no condition codes and no sticky status flags" (R29): these are the only flags there are. -/

namespace Sys2Proof.Machine

/-- R75: the control-data flag `cw[15]`. -/
def controlDataBit (cw : Half) : BitVec 1 := cw.extractLsb' 15 1

/-- R75: the bits `cw[14:8]`, which have no name. -/
def controlUnnamed (cw : Half) : BitVec 7 := cw.extractLsb' 8 7

/-- R75: the brightness level `cw[7:6]`. -/
def brightnessField (cw : Half) : BitVec 2 := cw.extractLsb' 6 2

/-- R75: the left-hand tally colour `cw[5:4]`. -/
def leftField (cw : Half) : BitVec 2 := cw.extractLsb' 4 2

/-- R75: the text-area tally colour `cw[3:2]`. -/
def textField (cw : Half) : BitVec 2 := cw.extractLsb' 2 2

/-- R75: the right-hand tally colour `cw[1:0]`. -/
def rightField (cw : Half) : BitVec 2 := cw.extractLsb' 0 2

/-- R76: bit 0 of the flags byte, the text-encoding selector. The codec does not read it. -/
def textEncodingBit (f : Byte) : BitVec 1 := f.extractLsb' 0 1

/-- R76: bits 7 to 1 of the flags byte, which have no meaning. -/
def flagsUnnamed (f : Byte) : BitVec 7 := f.extractLsb' 1 7

/-- R23: the tally colours. -/
inductive TallyColour where
  | off
  | red
  | green
  | amber
  deriving DecidableEq, Repr

/-- R23: "0=OFF, 1=RED, 2=GREEN, 3=AMBER". -/
def TallyColour.ofField (v : BitVec 2) : TallyColour :=
  match v.toNat with
  | 0 => .off
  | 1 => .red
  | 2 => .green
  | _ /- 3, the only value left -/ => .amber

/-- R26: the bit that codes a transport kind, 0 = `stream`, 1 = `datagram`. -/
def kindBit : TransportKind → BitVec 1
  | .stream => 0
  | .datagram => 1

/-- R26: the host's read of `CFG`: `TX_KIND` in bit 0, `RX_KIND` in bit 1, bits 7 to 2 zero. -/
def State.cfgRead (s : State) : Byte := (0 : BitVec 6) ++ kindBit s.rxKind ++ kindBit s.txKind

/-- R27: `RXLEN = len(RXBUF)`, readable by the host and no state of its own. -/
def State.rxLen (s : State) : Nat := s.rxbuf.length

/-- R190: the status code of an error kind. -/
def ErrorKind.code : ErrorKind → BitVec 4
  | .textTooLong => 0x1
  | .tooShort => 0x2
  | .lengthMismatch => 0x3
  | .truncated => 0x4
  | .unsupportedControlData => 0x5
  | .packetTooLong => 0x6
  | .connectionFailure => 0x7

/-- R32(d), R190: the `status[3:0]` a result carries. -/
def Response.status : Response → BitVec 4
  | .error k => k.code
  | .done | .bytes _ | .packet _ | .deframed _ | .found _ | .field2 _ | .field1 _
  | .packetFields _ _ _ _ _ | .messageFields _ _ _ _ | .controlFields _ _ _ _ _ _ | .flagsFields _ _ => 0x0

end Sys2Proof.Machine
end

