-- ==== Sys2Proof/Machine/Image.lean ====
section
/-! DEFINITION. The packet codec as functions of their operands (40_codec.md R100 to R103): pure, stateless,
shared by `ENCODE`, `DECODE`, `RX_DRAIN` and `RX_DGRAM`. -/

namespace Sys2Proof.Machine

/-! ## Encoding -/

/-- R101: the encoding of one message, `6 + len(m.text)` bytes. It is defined only for `len(m.text) ≤ 65535`;
above that, which `ENCODE` never reaches, this total function writes the length modulo 65536. DESIGN CHOICE
(log 25). -/
def encodeMessage (m : DisplayMessage) : Bytes :=
  le16 m.index ++ le16 m.controlWord ++ le16 (BitVec.ofNat 16 m.text.length) ++ m.text

/-- R71: "concatenation of encoded messages in sequence order". -/
def messageBytes (ms : List DisplayMessage) : Bytes := ms.flatMap encodeMessage

/-- R100: the body, everything after the PBC field. -/
def packetBody (p : Packet) : Bytes :=
  [p.version, p.flags] ++ le16 p.screen ++ messageBytes p.messages

/-- R100, R191: no message's text exceeds `MAX_TEXT` bytes. -/
def textsFit (p : Packet) : Bool := p.messages.all fun m => m.text.length ≤ Config.maxText

/-- R73, R100: the PBC, computed last, in front of a body that fits it; `PacketTooLong` otherwise (R196). -/
def sealImage (body : Bytes) : EncodeResult :=
  if Config.pbcMax < body.length then .error .packetTooLong
  else .ok (le16 (BitVec.ofNat 16 body.length) ++ body)

/-- R100: `ENCODE` as a function. `TextTooLong` is tested first, over all messages (R199). -/
def encodeImageBytes (p : Packet) : EncodeResult :=
  if textsFit p then sealImage (packetBody p) else .error .textTooLong

/-! ## Decoding -/

/-- R103, tests (3) to (6) at one message position and at every later one: `r` is what remains of the input,
`ms` the messages accepted so far. The first argument bounds the number of positions; every accepted message
takes at least 6 bytes, so with the input's length as the bound it is never used up. -/
def decodeMessages : Nat → Bytes → List DisplayMessage → Except ErrorKind (List DisplayMessage)
  | 0, r, ms => if r.length = 0 then .ok ms else .error .truncated
  | n + 1, r, ms =>
    if r.length = 0 then .ok ms
    else if r.length < Config.msgHdr then .error .truncated
    else if controlDataBit (rd16 r 2) = 1 then .error .unsupportedControlData
    else if r.length < Config.msgFixed then .error .truncated
    else if r.length < Config.msgFixed + (rd16 r 4).toNat then .error .truncated
    else
      decodeMessages n (r.drop (Config.msgFixed + (rd16 r 4).toNat))
        (ms ++ [⟨rd16 r 0, rd16 r 2, (r.drop Config.msgFixed).take (rd16 r 4).toNat⟩])

/-- R102: `DECODE` as a function. -/
def decodeImageBytes (b : Bytes) : DecodeResult :=
  if b.length < Config.minPacket then .error .tooShort
  else if (rd16 b 0).toNat ≠ b.length - 2 then .error .lengthMismatch
  else match decodeMessages b.length (b.drop Config.pktFixed) [] with
    | .error k => .error k
    | .ok ms => .ok ⟨rd8 b 2, rd8 b 3, rd16 b 4, ms⟩

end Sys2Proof.Machine
end

