-- ==== Sys2Proof/Machine/Operands.lean ====
section
/-! DEFINITION. From the values of the codec to the result port: the response each outcome stands for.

The operands themselves travel on the ports (R32) and are read in Decode.lean; the block has no addressing
mode but an offset into a byte string (R65). -/

namespace Sys2Proof.Machine

/-- R102: what `DECODE` answers, on the result port. -/
def Response.ofDecode : DecodeResult → Response
  | .ok p => .packet p
  | .error k => .error k

/-- R100: what `ENCODE` answers, on the result port. -/
def Response.ofEncode : EncodeResult → Response
  | .ok image => .bytes image
  | .error k => .error k

/-- R71, R73: the fixed part of a packet as the codec reads it; `PBC = n − 2` for an image of `n` bytes. -/
def Response.ofPacketFixed (pbc : Half) (version flags : Byte) (screen : Half) : Response :=
  .packetFields pbc version flags screen (pbc.toNat + 2)

/-- R72, R56: the fixed part of a message as the codec reads it; the next message starts `6 + TextLen` on. -/
def Response.ofMessageFixed (index controlWord textLen : Half) : Response :=
  .messageFields index controlWord textLen (Config.msgFixed + textLen.toNat)

/-- R75: all fields of a control word. -/
def Response.ofControlWord (cw : Half) : Response :=
  .controlFields (controlDataBit cw) (controlUnnamed cw) (brightnessField cw) (leftField cw) (textField cw)
    (rightField cw)

/-- R76: the fields of the flags byte. -/
def Response.ofFlags (f : Byte) : Response := .flagsFields (flagsUnnamed f) (textEncodingBit f)

end Sys2Proof.Machine
end

