-- ==== Sys2Proof/Machine/Ops.lean ====
section
/-! DEFINITION. The named operations over the state. Every meaning is written over these. -/

namespace Sys2Proof.Machine

/-- R10, R32(d): the result of an accepted command. -/
def State.respond (s : State) (r : Response) : State := { s with response := some r }

/-- R200, the analogue of taking a trap: "Nothing is saved, no mode changes, control goes nowhere: the
operation ends and its result is the error kind." The analogue of the return (R201) is nothing at all: the
block carries on with the next command, "no flag is latched" and nothing is cleared or acknowledged. -/
def State.takeError (s : State) (k : ErrorKind) : State := s.respond (.error k)

/-! ## The TX unit -/

/-- R31(a), R232: the staging store takes in the whole body before any byte is emitted. -/
def State.stage (s : State) (body : Bytes) : State := { s with staging := body }

/-- R31(a): "the store is empty between operations". -/
def State.releaseStaging (s : State) : State := { s with staging := [] }

/-- R30, R160: `TXOUT` gains one write unit. -/
def State.transmit (s : State) (unit : Bytes) : State := { s with txout := s.txout ++ [unit] }

/-- R160: the write unit of a packet image, framed on a stream and unmodified as a datagram. -/
def writeUnit (kind : TransportKind) (b : Bytes) : Bytes :=
  match kind with
  | .stream => frameBytes b
  | .datagram => b

/-! ## The RX unit -/

/-- R30, R162, R164: `RXOUT` gains the record `(raw, DECODE(raw))`, whether or not it decodes. -/
def State.deliver (s : State) (raw : Bytes) : State :=
  { s with rxout := s.rxout ++ [⟨raw, decodeImageBytes raw⟩] }

/-- R161: whether the bytes fit the receive buffer, `len(RXBUF) + len(c) ≤ RXBUF_CAP`. -/
def State.fits (s : State) (c : Bytes) : Bool :=
  match s.rxbufCap with
  | none => true
  | some cap => s.rxbuf.length + c.length ≤ cap

/-- R161: `RXBUF <- RXBUF ++ c`; the byte-serial de-framer reads the same bytes (R137). What it would emit is
not delivered here: "pushing never delivers anything; only `RX_DRAIN` does". -/
def State.pushBytes (s : State) (c : Bytes) : State :=
  { s with rxbuf := s.rxbuf ++ c, serial := (s.serial.run c).1 }

/-- R162: `RXBUF <- rest`. A remainder that begins with the next start marker leaves the byte-serial
de-framer where it is, inside the frame in progress; an empty remainder means that the end of the stream
closed the last frame, and it is back in its reset state (R137, input `eos`). -/
def State.setRemainder (s : State) (rest : Bytes) : State :=
  { s with rxbuf := rest, serial := if rest = [] then s.serial.eos.1 else s.serial }

/-- R162, R165, R221: the channel as reset leaves it, `RXBUF = []` and `RX_EOS = 0`. -/
def State.emptyChannel (s : State) : State :=
  { s with rxbuf := [], rxEos := false, serial := Serial.reset }

/-- R163: `RX_EOS <- 1`. -/
def State.endStream (s : State) : State := { s with rxEos := true }

/-- R161: bytes of the stream reach the RX unit, or the command is refused: in datagram mode, after the end
of the stream, or when they do not fit. -/
def receiveBytes (c : Bytes) (s : State) : Host.Outcome State Fault Refusal :=
  if s.rxKind = .datagram then .refused .wrongTransportKind
  else if s.rxEos then .refused .streamEnded
  else if s.fits c then .next ((s.pushBytes c).respond .done)
  else .refused .bufferFull

/-! ## The ports -/

/-- The transfers that still stand on the ports. -/
def State.withPort (s : State) (rest : List Beat) : State := { s with port := rest }

/-- R32(a): the host presents one instruction, with its operand. -/
def State.present (s : State) (i : Instr) : State := s.withPort (encodePort i)

/-- R220: `rst` asserted. Every piece of state is at its reset value, `CFG` loaded from the inputs; the
capacity is a parameter, and what the host presents after `rst` stands on the ports. -/
def State.assertReset (s : State) (tx rx : TransportKind) (rest : List Beat) : State :=
  State.resetWith tx rx s.rxbufCap rest

/-- R220: an assertion of `rst` on the ports acts when nothing that stands before it can be accepted: what
stands there is abandoned without a result. With no `rst` on the ports the outcome is the given one. -/
def State.resetOr (s : State) (o : Host.Outcome State Fault Refusal) : Host.Outcome State Fault Refusal :=
  match firstReset s.port with
  | some (tx, rx, rest) => .next (s.assertReset tx rx rest)
  | none => o

/-- What an outcome leaves of the ports: an accepted command's transfers are taken, a refused one's are not,
"a refused command is one whose handshake on the command port does not complete" (R32); an `rst` behind it
abandons it (R220). -/
def State.acceptTransfers (s : State) (rest : List Beat) :
    Host.Outcome State Fault Refusal → Host.Outcome State Fault Refusal
  | .next t => .next (t.withPort rest)
  | .fault f => s.resetOr (.fault f)
  | .refused r => s.resetOr (.refused r)

/-- R61: the state after a command with this outcome, "a refused command contributes nothing". -/
def State.after (s : State) : Host.Outcome State Fault Refusal → State
  | .next t => t
  | .fault _ => s
  | .refused _ => s

end Sys2Proof.Machine
end

