-- ==== Sys2Proof/Machine/Accessors.lean ====
section
/-! DEFINITION. The five accessors of the control word (R104 to R108): no state, no error, every `cw`. -/

namespace Sys2Proof.Machine

/-- `BRIGHTNESS cw`, R104: `cw[7:6]`. -/
def execBrightness (cw : Half) (s : State) : Host.Outcome State Fault Refusal :=
  .next (s.respond (.field2 (brightnessField cw)))

/-- `LEFTTALLY cw`, R105: `cw[5:4]`. -/
def execLeftTally (cw : Half) (s : State) : Host.Outcome State Fault Refusal :=
  .next (s.respond (.field2 (leftField cw)))

/-- `TEXTTALLY cw`, R106: `cw[3:2]`. -/
def execTextTally (cw : Half) (s : State) : Host.Outcome State Fault Refusal :=
  .next (s.respond (.field2 (textField cw)))

/-- `RIGHTTALLY cw`, R107: `cw[1:0]`. -/
def execRightTally (cw : Half) (s : State) : Host.Outcome State Fault Refusal :=
  .next (s.respond (.field2 (rightField cw)))

/-- `ISCONTROLDATA cw`, R108: `cw[15]`. -/
def execIsControlData (cw : Half) (s : State) : Host.Outcome State Fault Refusal :=
  .next (s.respond (.field1 (controlDataBit cw)))

end Sys2Proof.Machine
end

