-- ==== Sys2Proof/Machine/Codec.lean ====
section
/-! DEFINITION. The packet codec's commands: `RESERVED_0` (R83), `ENCODE` (R100), `DECODE` (R102). -/

namespace Sys2Proof.Machine

/-- `RESERVED_0`, R83: "A command with `cmd = 0x0` is refused (00_scope.md rule R10): no state changes and no
result is produced." -/
def execReserved0 (_s : State) : Host.Outcome State Fault Refusal := .refused .reservedCommand

/-- `ENCODE p`, R100. The texts are checked first; then the body is taken into the staging store, and only
when all of it is there and fits the PBC does an image leave (R232). The store is empty again afterwards. -/
def execEncode (p : Packet) (s : State) : Host.Outcome State Fault Refusal :=
  if textsFit p then
    match sealImage (s.stage (packetBody p)).staging with
    | .ok image => .next (s.releaseStaging.respond (.bytes image))
    | .error k => .next (s.releaseStaging.takeError k)
  else .next (s.releaseStaging.takeError .textTooLong)

/-- `DECODE b`, R102. -/
def execDecode (b : Bytes) (s : State) : Host.Outcome State Fault Refusal :=
  match decodeImageBytes b with
  | .ok p => .next (s.respond (.packet p))
  | .error k => .next (s.takeError k)

end Sys2Proof.Machine
end

