-- ==== Sys2Proof/Machine/Framing.lean ====
section
/-! DEFINITION. The frame transport's commands: `FRAME` (R131), `DEFRAME` (R135). -/

namespace Sys2Proof.Machine

/-- `FRAME b`, R131. -/
def execFrame (b : Bytes) (s : State) : Host.Outcome State Fault Refusal :=
  .next (s.respond (.bytes (frameBytes b)))

/-- `DEFRAME b, eos`, R135. It reads no state: `eos` is its own operand. -/
def execDeframe (b : Bytes) (eos : Bool) (s : State) : Host.Outcome State Fault Refusal :=
  .next (s.respond (.deframed (deframeBytes b eos)))

end Sys2Proof.Machine
end

