-- ==== Sys2Proof/Machine/Stream.lean ====
section
/-! DEFINITION. The stream engine (42_stream_engine.md): `TX_SEND`, `RX_PUSH`, `RX_DRAIN`, `RX_EOS`,
`RX_DGRAM`, `RX_ABORT`, and the pseudo-operations of R85. -/

namespace Sys2Proof.Machine

/-- `TX_SEND b`, R160. -/
def execTxSend (b : Bytes) (s : State) : Host.Outcome State Fault Refusal :=
  .next ((s.transmit (writeUnit s.txKind b)).respond .done)

/-- `RX_PUSH c`, R161. -/
def execRxPush (c : Bytes) (s : State) : Host.Outcome State Fault Refusal := receiveBytes c s

/-- `RX_DRAIN`, R162: one call of `DEFRAME` on the receive buffer, with the real `RX_EOS` flag. -/
def execRxDrain (s : State) : Host.Outcome State Fault Refusal :=
  if s.rxKind = .datagram then .refused .wrongTransportKind
  else if (deframeBytes s.rxbuf s.rxEos).found then
    .next (((s.setRemainder (deframeBytes s.rxbuf s.rxEos).rest).deliver
      (deframeBytes s.rxbuf s.rxEos).payload).respond (.found true))
  else if s.rxEos then .next (s.emptyChannel.respond (.found false))
  else .next (s.respond (.found false))

/-- `RX_EOS`, R163. -/
def execRxEos (s : State) : Host.Outcome State Fault Refusal :=
  if s.rxKind = .datagram then .refused .wrongTransportKind
  else .next (s.endStream.respond .done)

/-- `RX_DGRAM d`, R164. -/
def execRxDgram (d : Bytes) (s : State) : Host.Outcome State Fault Refusal :=
  if s.rxKind = .stream then .refused .wrongTransportKind
  else .next ((s.deliver d).respond .done)

/-- `RX_ABORT`, R165. -/
def execRxAbort (s : State) : Host.Outcome State Fault Refusal :=
  .next (s.emptyChannel.respond .done)

/-! ## Pseudo-operations (R85): command sequences the host runs, none with a code of its own -/

/-- `RX_DRAIN` repeated until it returns `found = 0` (R166), the first argument bounding the repetitions
(log 20). In datagram mode every drain is refused, and so is the repetition (R168, log 24). -/
def drainUntilNotFound : Nat → State → Host.Outcome State Fault Refusal
  | 0, s => .next s
  | n + 1, s =>
    match execRxDrain s with
    | .next t => if t.response = some (.found true) then drainUntilNotFound n t else .next t
    | .fault f => .fault f
    | .refused r => .refused r

/-- R166: enough repetitions for any buffer, since every drain with `found = 1` takes at least 2 bytes. -/
def State.drainAll (s : State) : Host.Outcome State Fault Refusal := drainUntilNotFound (s.rxbuf.length + 1) s

/-- `RX_FEED c`, R85, R166: `RX_PUSH c`, then the drains. A push that is refused contributes nothing (R61,
R198), and the drains run all the same. -/
def rxFeed (c : Bytes) (s : State) : Host.Outcome State Fault Refusal := (s.after (execRxPush c s)).drainAll

/-- `RX_CLOSE`, R85, R167: `RX_EOS`, then the drains: the orderly end of a stream. -/
def rxClose (s : State) : Host.Outcome State Fault Refusal := (s.after (execRxEos s)).drainAll

/-- `RX_FEED` of each chunk in turn. Only in datagram mode is a feed refused, and then each of them is. -/
def rxFeedAll : List Bytes → State → Host.Outcome State Fault Refusal
  | [], s => .next s
  | c :: cs, s =>
    match rxFeed c s with
    | .next t => rxFeedAll cs t
    | .fault f => .fault f
    | .refused r => .refused r

/-- `SEND p`, R167: `ENCODE p`, and `TX_SEND` of the image when there is one. -/
def sendPacket (p : Packet) (s : State) : Host.Outcome State Fault Refusal :=
  match execEncode p s with
  | .next t =>
    match t.response with
    | some (.bytes e) => execTxSend e t
    | _ => .next t
  | o => o

end Sys2Proof.Machine
end

