-- ==== Sys2Proof/Machine/Wire.lean ====
section
/-! DEFINITION. The rows of the opcode table that are no command: the wire layouts of R71, R72, R75 and R76,
which the codec reads field by field, and the stream tokens of R78, which reach the de-framer as bytes of the
stream. -/

namespace Sys2Proof.Machine

/-- `PACKET_FIXED`, R71: the codec reads the fields (R74); no state is written (R35). DEDUCED (log 6). -/
def execPacketFixed (pbc : Half) (version flags : Byte) (screen : Half) (s : State) :
    Host.Outcome State Fault Refusal :=
  .next (s.respond (Response.ofPacketFixed pbc version flags screen))

/-- `MESSAGE_FIXED`, R72: the codec reads the fields (R74); no state is written (R35). DEDUCED (log 6). -/
def execMessageFixed (index controlWord textLen : Half) (s : State) : Host.Outcome State Fault Refusal :=
  .next (s.respond (Response.ofMessageFixed index controlWord textLen))

/-- `CONTROL_WORD`, R75: all its fields are read, the unnamed bits too. DEDUCED (log 6). -/
def execControlWord (cw : Half) (s : State) : Host.Outcome State Fault Refusal :=
  .next (s.respond (Response.ofControlWord cw))

/-- `FLAGS`, R76: its fields are read; any value is legal (R81). DEDUCED (log 6). -/
def execFlags (f : Byte) (s : State) : Host.Outcome State Fault Refusal :=
  .next (s.respond (Response.ofFlags f))

/-- `SOF`, R78: the start marker reaches the RX unit; it "ends the current payload" and its "two bytes stay
in the buffer as the start marker of the next call". DEDUCED (log 7). -/
def execSof (s : State) : Host.Outcome State Fault Refusal := receiveBytes Config.marker s

/-- `ESC_FE`, R78: a stuffed `FE` reaches the RX unit, payload byte `FE`. DEDUCED (log 7). -/
def execEscFe (s : State) : Host.Outcome State Fault Refusal := receiveBytes [Config.esc, Config.esc] s

/-- `LIT x`, R78: the byte reaches the RX unit, payload byte `x`. DEDUCED (log 7). -/
def execLit (x : Byte) (s : State) : Host.Outcome State Fault Refusal := receiveBytes [x] s

/-- `LONE_FE`, R78, R140: one `FE` reaches the RX unit, payload byte `FE`. The byte-serial de-framer holds it
pending until its follower, which is not consumed, or the end of the stream. DEDUCED (log 7, log 8). -/
def execLoneFe (s : State) : Host.Outcome State Fault Refusal := receiveBytes [Config.esc] s

end Sys2Proof.Machine
end

