-- ==== Sys2Proof/Machine/Dispatch.lean ====
section
/-! DEFINITION. The meaning of each instruction, one arm per row of the opcode table. -/

namespace Sys2Proof.Machine

def exec (i : Instr) (s : State) : Host.Outcome State Fault Refusal :=
  match i with
  -- command codes, R80
  | .reserved0 => Sys2Proof.Machine.execReserved0 s
  | .encode p => Sys2Proof.Machine.execEncode p s
  | .decode b => Sys2Proof.Machine.execDecode b s
  | .frame b => Sys2Proof.Machine.execFrame b s
  | .deframe b eos => Sys2Proof.Machine.execDeframe b eos s
  | .txSend b => Sys2Proof.Machine.execTxSend b s
  | .rxPush c => Sys2Proof.Machine.execRxPush c s
  | .rxDrain => Sys2Proof.Machine.execRxDrain s
  | .rxEos => Sys2Proof.Machine.execRxEos s
  | .rxDgram d => Sys2Proof.Machine.execRxDgram d s
  | .rxAbort => Sys2Proof.Machine.execRxAbort s
  | .brightness cw => Sys2Proof.Machine.execBrightness cw s
  | .leftTally cw => Sys2Proof.Machine.execLeftTally cw s
  | .textTally cw => Sys2Proof.Machine.execTextTally cw s
  | .rightTally cw => Sys2Proof.Machine.execRightTally cw s
  | .isControlData cw => Sys2Proof.Machine.execIsControlData cw s
  -- wire layouts, R71, R72, R75, R76
  | .packetFixed pbc version flags screen => Sys2Proof.Machine.execPacketFixed pbc version flags screen s
  | .messageFixed index controlWord textLen => Sys2Proof.Machine.execMessageFixed index controlWord textLen s
  | .controlWord cw => Sys2Proof.Machine.execControlWord cw s
  | .flags f => Sys2Proof.Machine.execFlags f s
  -- stream tokens, R78
  | .sof => Sys2Proof.Machine.execSof s
  | .escFe => Sys2Proof.Machine.execEscFe s
  | .lit x => Sys2Proof.Machine.execLit x s
  | .loneFe => Sys2Proof.Machine.execLoneFe s

end Sys2Proof.Machine
end

