-- ==== Sys2Proof/Machine/Step.lean ====
section
/-! DEFINITION. One step: the block takes the instruction that stands first on its input ports, whole, and
runs it (R6, R32(a), R58). It fetches no program (R25). -/

namespace Sys2Proof.Machine

/-- One step. With nothing to take, or a transfer not yet whole, the block waits (R208). An assertion of
`rst` abandons a transfer in progress, a command that is not accepted, and transfers that are no command's
(R220, log 14). -/
def step (s : State) : Host.Outcome State Fault Refusal :=
  match decodePort s.port with
  | .ok (i, rest) => s.acceptTransfers rest (exec i s)
  | .error .incomplete => .next s
  | .error .pendingFe => .next s
  | .error .abandoned => s.resetOr (.next s)
  | .error .malformed => s.resetOr (.refused .malformedTransfer)

/-- The state with a table row's bits on the input ports (log 9, log 15). -/
def State.withFetchWord (s : State) (nbits w : Nat) : State := s.withPort (tableBeats nbits w)

/-- R61: the state after a command, a refused command contributing nothing. -/
def State.issue (s : State) (i : Instr) : State := s.after (exec i s)

/-- R61: "the state after a sequence of commands is the state obtained by applying their rules in issue
order". -/
def State.issueAll (s : State) (is : List Instr) : State := is.foldl State.issue s

end Sys2Proof.Machine
end

