-- ==== Sys2Proof/Safety.lean ====
section
/-! DEFINITION. What the statements speak of: which commands are accepted, and the invariant of the machine. -/

namespace Sys2Proof.Machine

/-- R161, R168: bytes of the stream are accepted in stream mode, before the end of the stream, when they fit. -/
def State.acceptsBytes (s : State) (c : Bytes) : Bool :=
  s.rxKind == .stream && !s.rxEos && s.fits c

/-- R168, R83: which commands are accepted in which state. The wire layouts are read always, and a stream
token is accepted as its bytes are (log 6, log 7). -/
def State.accepts (s : State) : Instr → Bool
  | .reserved0 => false
  | .rxPush c => s.acceptsBytes c
  | .rxDrain | .rxEos => s.rxKind == .stream
  | .rxDgram _ => s.rxKind == .datagram
  | .sof => s.acceptsBytes Config.marker
  | .escFe => s.acceptsBytes [Config.esc, Config.esc]
  | .lit x => s.acceptsBytes [x]
  | .loneFe => s.acceptsBytes [Config.esc]
  | .encode _ | .decode _ | .frame _ | .deframe _ _ | .txSend _ | .rxAbort
  | .brightness _ | .leftTally _ | .textTally _ | .rightTally _ | .isControlData _
  | .packetFixed _ _ _ _ | .messageFixed _ _ _ | .controlWord _ | .flags _ => true

/-- R161, R166: whether the push of every feed in turn is accepted. -/
def State.acceptsFeeds : List Bytes → State → Bool
  | [], _ => true
  | c :: cs, s =>
    s.acceptsBytes c && match rxFeed c s with
      | .next t => t.acceptsFeeds cs
      | .fault _ => false
      | .refused _ => false

/-- R27: the receive buffer is within its capacity. -/
def State.withinCapacity (s : State) : Bool :=
  match s.rxbufCap with
  | none => true
  | some cap => s.rxbuf.length ≤ cap

/-- The invariant of the machine between operations: the staging store is empty (R31(a)), the byte-serial
de-framer is where `RXBUF` puts it (R31(b), R137), the receive buffer is within its capacity (R27), and in
datagram mode the channel is not used (R27, R164). -/
abbrev State.Inv (s : State) : Prop :=
  s.staging = [] ∧ s.serial = Serial.ofBuffer s.rxbuf ∧ s.withinCapacity = true ∧
    (s.rxKind = .datagram → s.rxbuf = [] ∧ s.rxEos = false)

/-! ## Words of the statements -/

/-- R20: the commands of the TX unit. -/
def isTxCommand : Instr → Bool
  | .encode _ | .frame _ | .txSend _ => true
  | _ => false

/-- R20: the commands of the RX unit. -/
def isRxCommand : Instr → Bool
  | .decode _ | .deframe _ _ | .brightness _ | .leftTally _ | .textTally _ | .rightTally _
  | .isControlData _ | .rxPush _ | .rxDrain | .rxEos | .rxDgram _ | .rxAbort => true
  | _ => false

/-- R168: the pure commands, `ENCODE` apart (it passes through the staging store). -/
def isPureCommand : Instr → Bool
  | .decode _ | .frame _ | .deframe _ _ | .brightness _ | .leftTally _ | .textTally _ | .rightTally _
  | .isControlData _ => true
  | _ => false

/-- R56: the offset of message `i` in a packet image. -/
def messageOffset (p : Packet) (i : Nat) : Nat :=
  Config.pktFixed + (messageBytes (p.messages.take i)).length

/-- R114: the string with bit 7 of the byte at an offset set. -/
def setTopBit (b : Bytes) (o : Nat) : Bytes := b.set o (rd8 b o ||| 0x80)

/-- R30: the record that delivers a byte string. -/
def recordOf (raw : Bytes) : RxRecord := ⟨raw, decodeImageBytes raw⟩

/-- R137: the payloads the byte-serial de-framer emits over a whole stream, up to and including its `eos`. -/
def streamPayloads (b : Bytes) : List Bytes :=
  (Serial.reset.run b).2 ++ (Serial.reset.run b).1.eos.2.toList

end Sys2Proof.Machine
end

