-- ==== Sys2Proof/Certificates/Slice0/Obligations.lean ====
section
/-! DEFINITION. The statements for the provers. Each docstring names the rule of spec/ it formalises, or the
log entry whose choice it rests on. -/

open Sys2Proof Sys2Proof.Machine

/-! ## The ports: reading and writing instructions -/

/-- R32, R78, R80, R86: what the encoder writes is read back as the same well-formed instruction, with every
operand at every value, whatever may follow it. Only a `LONE_FE` restricts what may follow: something must stand
behind it, and that is neither `rst` nor a wire byte `FE` or `02`. That a transfer other than a wire byte behind
the `FE` leaves it a `LONE_FE` is the model's choice (log 8); so is the form of the transfers (log 1, log 6,
log 22). -/
def Obligations.PortReadsBackEveryInstruction : Prop :=
  ∀ (i : Instr) (rest : List Beat), i.wellFormed = true → followerAllowed i rest = true →
    decodePort (encodePort i ++ rest) = .ok (i, rest)

/-- R32, R78, R80, R86 (log 1, log 6, log 8, log 22): each sequence of transfers that is read as an instruction
is the one the encoder writes for it, so no transfer has two readings and none is dropped. -/
def Obligations.PortReadingIsCanonical : Prop :=
  ∀ (bs : List Beat) (i : Instr) (rest : List Beat), decodePort bs = .ok (i, rest) →
    i.wellFormed = true ∧ followerAllowed i rest = true ∧ bs = encodePort i ++ rest

/-- R80, R71, R72, R78: a few words written out from the spec's tables are read as their instructions. The
clauses on `decodeTableWord` rest on the model's reading of the table's numbers (log 9), the others on its form of
the transfers (log 1, log 6, log 22). -/
def Obligations.WrittenWordsAreRead : Prop :=
  decodeTableWord 8 0x0 = some .reserved0 ∧
  decodeTableWord 8 0x7 = some .rxDrain ∧
  decodePort [.cmd 0x4, .data 0xFE false, .data 0x02 true, .eosBit true]
    = .ok (.deframe [0xFE, 0x02] true, []) ∧
  decodePort [.cmd 0xB, .word 0x00D5, .cmd 0x7] = .ok (.brightness 0x00D5, [.cmd 0x7]) ∧
  decodePort [.image .messageFixed 0x01, .image .messageFixed 0x00, .image .messageFixed 0xD5,
      .image .messageFixed 0x00, .image .messageFixed 0x05, .image .messageFixed 0x00]
    = .ok (.messageFixed 0x0001 0x00D5 0x0005, []) ∧
  decodeTableWord 16 0xFE02 = some .sof ∧
  decodeTableWord 16 0xFEFE = some .escFe ∧
  decodePort [.wire 0xFE, .wire 0x41] = .ok (.loneFe, [.wire 0x41])

/-- R6, R10, R32, R220 (log 1): a step runs the instruction that stands first on the ports and takes its
transfers; a refused command's step has no transition, unless `rst` is asserted behind it: then it is abandoned
and the step is the reset (log 14). -/
def Obligations.StepRunsTheInstructionOnThePort : Prop :=
  ∀ (s : State) (i : Instr) (rest : List Beat), decodePort s.port = .ok (i, rest) →
    (∀ t, exec i s = .next t → step s = .next { t with port := rest }) ∧
    (∀ r, exec i s = .refused r →
      (firstReset s.port = none → step s = .refused r) ∧
      (∀ tx rx rest', firstReset s.port = some (tx, rx, rest') →
        step s = .next (State.resetWith tx rx s.rxbufCap rest')))

/-- R208, R6 (log 13): with nothing on the ports, or a transfer not yet whole, the step leaves the state as
it is. -/
def Obligations.StepWaitsForAWholeTransfer : Prop :=
  (∀ s : State, s.port = [] → step s = .next s) ∧
  (∀ s : State, decodePort s.port = .error .incomplete ∨ decodePort s.port = .error .pendingFe →
    step s = .next s)

/-- R32 (log 1): no instruction touches the input ports; only the step takes transfers off them. -/
def Obligations.InstructionsLeaveThePorts : Prop :=
  ∀ (i : Instr) (s t : State), exec i s = .next t → t.port = s.port

/-! ## Reset -/

/-- R220, R33: `rst` puts every piece of state at the value of R33's table, `CFG` from its inputs, whatever
stands before it that is no accepted command: nothing, the beginning of a command, transfers that are no
command's, or a command that is refused; the operation in progress leaves no result. The model's own fields: the
capacity is a parameter and stays, the result port is empty (log 2), the ports hold what follows (log 14). -/
def Obligations.ResetRestoresEveryField : Prop :=
  ∀ (s : State) (pre : List Beat) (tx rx : TransportKind) (rest : List Beat),
    firstReset pre = none →
    (∃ e, decodePort pre = .error e) ∨ (∃ i r f, decodePort pre = .ok (i, r) ∧ exec i s = .refused f) →
    s.port = pre ++ .rst tx rx :: rest →
    step s = .next
      { txKind := tx, rxKind := rx, rxbufCap := s.rxbufCap, rxbuf := [], rxEos := false, txout := [],
        rxout := [], staging := [], serial := ⟨.hunt0, []⟩, response := none, port := rest }

/-- R26: `CFG` reads `TX_KIND` in bit 0, `RX_KIND` in bit 1 and zeros above, 0 being `stream` and 1
`datagram`; both fields are loaded by reset and changed by no other step. -/
def Obligations.ConfigurationChangesOnlyAtReset : Prop :=
  (∀ s : State, s.cfgRead.toNat =
    (if s.txKind = .stream then 0 else 1) + (if s.rxKind = .stream then 0 else 2)) ∧
  (∀ s t : State, firstReset s.port = none → step s = .next t →
    t.txKind = s.txKind ∧ t.rxKind = s.rxKind) ∧
  (∀ (s : State) (tx rx : TransportKind) (rest : List Beat), s.port = .rst tx rx :: rest →
    ∃ t, step s = .next t ∧ t.txKind = tx ∧ t.rxKind = rx)

/-! ## The invariant -/

/-- R31, R137, R27, R164: every step from a state with the invariant leads to one with it: the staging store
is empty, the scan state is the one `RXBUF` gives, the buffer is within its capacity, and the channel is
unused in datagram mode. -/
def Obligations.InvariantIsKeptByEveryStep : Prop :=
  ∀ s t : State, s.Inv → step s = .next t → t.Inv

/-- R33, R220: reset leaves the invariant, whatever the inputs, the capacity and the ports hold. -/
def Obligations.InvariantHoldsAfterReset : Prop :=
  State.reset.Inv ∧
  ∀ (tx rx : TransportKind) (cap : Option Nat) (port : List Beat), (State.resetWith tx rx cap port).Inv

/-! ## The packet codec -/

/-- R100, R101, R191, R196: `ENCODE` answers `TextTooLong` when a text exceeds 2048 bytes, else
`PacketTooLong` when the body exceeds 65535 bytes, else the body behind its little-endian length. Nothing
else changes; the staging store, empty between operations, is empty afterwards (R31, log 11). -/
def Obligations.EncodeAnswersTheImageOrAnError : Prop :=
  ∀ (p : Packet) (s : State) (body : Bytes),
    body = [p.version, p.flags] ++ le16 p.screen ++ p.messages.flatMap (fun m =>
      le16 m.index ++ le16 m.controlWord ++ le16 (BitVec.ofNat 16 m.text.length) ++ m.text) →
    ((∃ m ∈ p.messages, 2048 < m.text.length) →
      exec (.encode p) s = .next { s with staging := [], response := some (.error .textTooLong) }) ∧
    ((∀ m ∈ p.messages, m.text.length ≤ 2048) → 65535 < body.length →
      exec (.encode p) s = .next { s with staging := [], response := some (.error .packetTooLong) }) ∧
    ((∀ m ∈ p.messages, m.text.length ≤ 2048) → body.length ≤ 65535 →
      exec (.encode p) s = .next { s with
        staging := [], response := some (.bytes (le16 (BitVec.ofNat 16 body.length) ++ body)) })

/-- R110: in every image that leaves the encoder the first two bytes hold its length less 2. -/
def Obligations.PbcCountsWhatFollowsIt : Prop :=
  ∀ (p : Packet) (s t : State) (e : Bytes), exec (.encode p) s = .next t → t.response = some (.bytes e) →
    2 ≤ e.length ∧ (rd16 e 0).toNat = e.length - 2

/-- R21, an inference of the spec's own: a packet that `ENCODE` accepts has at most 10921 messages. -/
def Obligations.AcceptedPacketsHaveAtMost10921Messages : Prop :=
  ∀ (p : Packet) (s t : State) (e : Bytes), exec (.encode p) s = .next t → t.response = some (.bytes e) →
    p.messages.length ≤ 10921

/-- R102: `DECODE` answers every byte string, with a packet or with one of its four error kinds, and nothing
else changes. -/
def Obligations.DecodeAnswersEveryString : Prop :=
  ∀ (b : Bytes) (s : State), ∃ r, exec (.decode b) s = .next { s with response := some r } ∧
    ((∃ p, r = .packet p) ∨ r = .error .tooShort ∨ r = .error .lengthMismatch ∨ r = .error .truncated ∨
      r = .error .unsupportedControlData)

/-- R103, R192 to R195: the decoder's tests in their order. After any number of good messages, what
remains decides: nothing, 1 to 3 bytes, a control word with bit 15 set, 4 or 5 bytes, or a text that would
read past the end. -/
def Obligations.DecoderTestsRunInOrder : Prop :=
  (∀ (b : Bytes) (s : State), b.length < 6 →
    exec (.decode b) s = .next { s with response := some (.error .tooShort) }) ∧
  (∀ (b : Bytes) (s : State), 6 ≤ b.length → (rd16 b 0).toNat ≠ b.length - 2 →
    exec (.decode b) s = .next { s with response := some (.error .lengthMismatch) }) ∧
  (∀ (s : State) (pbc : Half) (v f : Byte) (scr : Half) (ms : List DisplayMessage) (r b : Bytes),
    (∀ m ∈ ms, m.controlWord.toNat < 32768 ∧ m.text.length ≤ 65535) →
    b = le16 pbc ++ [v, f] ++ le16 scr ++ messageBytes ms ++ r → pbc.toNat = b.length - 2 →
    (r = [] → exec (.decode b) s = .next { s with response := some (.packet ⟨v, f, scr, ms⟩) }) ∧
    (1 ≤ r.length → r.length ≤ 3 →
      exec (.decode b) s = .next { s with response := some (.error .truncated) }) ∧
    (4 ≤ r.length → 32768 ≤ (rd16 r 2).toNat →
      exec (.decode b) s = .next { s with response := some (.error .unsupportedControlData) }) ∧
    (r.length = 4 ∨ r.length = 5 → (rd16 r 2).toNat < 32768 →
      exec (.decode b) s = .next { s with response := some (.error .truncated) }) ∧
    (6 ≤ r.length → (rd16 r 2).toNat < 32768 → r.length < 6 + (rd16 r 4).toNat →
      exec (.decode b) s = .next { s with response := some (.error .truncated) }))

/-- R66, an inference of the spec's own: an input longer than 65537 bytes never matches its PBC. -/
def Obligations.OverlongInputIsALengthMismatch : Prop :=
  ∀ (b : Bytes) (s : State), 65537 < b.length →
    exec (.decode b) s = .next { s with response := some (.error .lengthMismatch) }

/-- R112: `DECODE` of what `ENCODE` answers is the packet again, when no text exceeds 2048 bytes, every bit 15
is clear and the body fits. With a bit 15 set the image decodes to `UnsupportedControlData`; with a body that
does not fit there is no image. -/
def Obligations.PacketRoundTrip : Prop :=
  ∀ (p : Packet) (s : State), (∀ m ∈ p.messages, m.text.length ≤ 2048) →
    (4 + (p.messages.map fun m => 6 + m.text.length).sum ≤ 65535 →
      ∃ e, exec (.encode p) s = .next { s with staging := [], response := some (.bytes e) } ∧
        ((∀ m ∈ p.messages, m.controlWord.toNat < 32768) →
          ∀ t, exec (.decode e) t = .next { t with response := some (.packet p) }) ∧
        ((∃ m ∈ p.messages, 32768 ≤ m.controlWord.toNat) →
          ∀ t, exec (.decode e) t = .next { t with response := some (.error .unsupportedControlData) })) ∧
    (65535 < 4 + (p.messages.map fun m => 6 + m.text.length).sum →
      exec (.encode p) s = .next { s with staging := [], response := some (.error .packetTooLong) })

/-- R113: a valid image whose PBC is changed to any other value is a `LengthMismatch`. -/
def Obligations.CorruptedLengthIsRejected : Prop :=
  ∀ (e : Bytes) (p : Packet) (s : State) (v : Half),
    exec (.decode e) s = .next { s with response := some (.packet p) } → v.toNat ≠ e.length - 2 →
    exec (.decode (le16 v ++ e.drop 2)) s
      = .next { s with response := some (.error .lengthMismatch) }

/-- R114: a valid image with bit 15 of any one message's control word set is `UnsupportedControlData`. -/
def Obligations.ControlDataIsRejected : Prop :=
  ∀ (e : Bytes) (p : Packet) (s : State) (i : Nat),
    exec (.decode e) s = .next { s with response := some (.packet p) } → i < p.messages.length →
    exec (.decode (setTopBit e (messageOffset p i + 3))) s
      = .next { s with response := some (.error .unsupportedControlData) }

/-- R115, an inference of the spec's own ("derived: from rules R100 and R102"): a packet that `DECODE` returned
encodes to the very bytes it came from, unless a text exceeds 2048 bytes, when `ENCODE` fails with
`TextTooLong`. -/
def Obligations.ConverseRoundTrip : Prop :=
  ∀ (b : Bytes) (p : Packet) (s : State),
    exec (.decode b) s = .next { s with response := some (.packet p) } →
    ((∀ m ∈ p.messages, m.text.length ≤ 2048) →
      exec (.encode p) s = .next { s with staging := [], response := some (.bytes b) }) ∧
    ((∃ m ∈ p.messages, 2048 < m.text.length) →
      exec (.encode p) s = .next { s with staging := [], response := some (.error .textTooLong) })

/-! ## The accessors -/

/-- R104 to R107, and R108's field: each accessor answers its field of the control word, for every control word
and in every state, and nothing else changes; the tally colours are 0 OFF, 1 RED, 2 GREEN, 3 AMBER. -/
def Obligations.AccessorsReadTheirFields : Prop :=
  (∀ (cw : Half) (s : State),
    exec (.brightness cw) s
      = .next { s with response := some (.field2 (BitVec.ofNat 2 (cw.toNat / 64 % 4))) } ∧
    exec (.leftTally cw) s
      = .next { s with response := some (.field2 (BitVec.ofNat 2 (cw.toNat / 16 % 4))) } ∧
    exec (.textTally cw) s
      = .next { s with response := some (.field2 (BitVec.ofNat 2 (cw.toNat / 4 % 4))) } ∧
    exec (.rightTally cw) s
      = .next { s with response := some (.field2 (BitVec.ofNat 2 (cw.toNat % 4))) } ∧
    exec (.isControlData cw) s
      = .next { s with response := some (.field1 (BitVec.ofNat 1 (cw.toNat / 32768 % 2))) }) ∧
  [0, 1, 2, 3].map TallyColour.ofField = [.off, .red, .green, .amber]

/-- R108, an inference of the spec's own: a message inside a packet that `DECODE` returned is never control data. -/
def Obligations.DecodedMessagesAreNeverControlData : Prop :=
  ∀ (b : Bytes) (p : Packet) (s t : State) (m : DisplayMessage),
    exec (.decode b) s = .next { s with response := some (.packet p) } → m ∈ p.messages →
    exec (.isControlData m.controlWord) t = .next { t with response := some (.field1 0) }

/-! ## The frame transport -/

/-- R131, R77: `FRAME` answers the start marker and the image with every `FE` doubled, in every state; the
frame of `n` bytes with `k` bytes `FE` among them has `2 + n + k` bytes. -/
def Obligations.FrameStuffsBehindTheMarker : Prop :=
  ∀ (b : Bytes) (s : State),
    ∃ w, exec (.frame b) s = .next { s with response := some (.bytes w) } ∧
      w = [0xFE, 0x02] ++ b.flatMap (fun x => if x = 0xFE then [0xFE, 0xFE] else [x]) ∧
      w.length = 2 + b.length + b.count 0xFE

/-- R130, an inference of the spec's own: every maximal run of `FE` in a stuffed string has even length: a run
of `FE` with no `FE` on either side of it. -/
def Obligations.StuffedRunsAreEven : Prop :=
  ∀ (b pre post : Bytes) (n : Nat), stuff b = pre ++ List.replicate n 0xFE ++ post →
    pre.getLast? ≠ some 0xFE → post.head? ≠ some 0xFE → n % 2 = 0

/-- R132, an inference of the spec's own: un-stuffing undoes stuffing. -/
def Obligations.UnstuffUndoesStuff : Prop := ∀ b : Bytes, unstuff (stuff b) = b

/-- R143: `DEFRAME (FRAME b)` with `eos = 1` is `(b, [], true)`, and with `eos = 0` it is not yet found, for
every `b`. -/
def Obligations.FramingRoundTrip : Prop :=
  ∀ (b : Bytes) (s : State), ∃ w,
    exec (.frame b) s = .next { s with response := some (.bytes w) } ∧
    exec (.deframe w true) s = .next { s with response := some (.deframed ⟨b, [], true⟩) } ∧
    exec (.deframe w false) s = .next { s with response := some (.deframed ⟨[], w, false⟩) }

/-- R136, an inference of the spec's own ("derived: from rules R132, R134 and R135"): `DEFRAME` answers what its
single-pass form gives, for every buffer and either `eos`, in every state, and nothing else changes. -/
def Obligations.DeframeAgreesWithItsSinglePass : Prop :=
  ∀ (buf : Bytes) (eos : Bool) (s : State),
    exec (.deframe buf eos) s
      = .next { s with response := some (.deframed (deframeSinglePass buf eos)) }

/-- R135, R138: not found leaves the buffer whole and the payload empty; found with `eos = 0` leaves a
remainder that is an end piece of the buffer, begins at or behind the end of the first start marker, and opens
with a whole start marker of its own, the next one. -/
def Obligations.DeframeWaitsForTheNextMarker : Prop :=
  ∀ (buf : Bytes) (eos : Bool) (s : State) (d : Deframed),
    exec (.deframe buf eos) s = .next { s with response := some (.deframed d) } →
    (d.found = false → d.payload = [] ∧ d.rest = buf) ∧
    (d.found = true → eos = false → ∃ k pre r, firstMarker buf = some k ∧ buf = pre ++ d.rest ∧
      k + 2 ≤ pre.length ∧ d.rest = 0xFE :: 0x02 :: r)

/-- R141, an inference of the spec's own: bytes before the first start marker are in neither the payload nor the
remainder of a frame that is found, and stay in the buffer while none is. -/
def Obligations.LeadingBytesAreDroppedWithTheFirstFrame : Prop :=
  ∀ (pre buf : Bytes) (eos : Bool) (s : State) (d : Deframed),
    firstMarker (pre ++ [0xFE]) = none →
    exec (.deframe (0xFE :: 0x02 :: buf) eos) s = .next { s with response := some (.deframed d) } →
    (d.found = true →
      exec (.deframe (pre ++ 0xFE :: 0x02 :: buf) eos) s
        = .next { s with response := some (.deframed d) }) ∧
    (d.found = false →
      exec (.deframe (pre ++ 0xFE :: 0x02 :: buf) eos) s
        = .next { s with response := some (.deframed ⟨[], pre ++ 0xFE :: 0x02 :: buf, false⟩) })

/-- R140: inside a frame, an `FE` before a byte other than `FE` and `02`, and an `FE` that ends the stream,
are literal; no error is raised. -/
def Obligations.LoneEscapeIsLiteral : Prop :=
  ∀ (b c : Bytes) (y : Byte) (s : State), y ≠ 0xFE → y ≠ 0x02 →
    exec (.deframe ([0xFE, 0x02] ++ stuff b ++ [0xFE, y] ++ stuff c) true) s
      = .next { s with response := some (.deframed ⟨b ++ [0xFE, y] ++ c, [], true⟩) } ∧
    exec (.deframe ([0xFE, 0x02] ++ stuff b ++ [0xFE]) true) s
      = .next { s with response := some (.deframed ⟨b ++ [0xFE], [], true⟩) }

/-- R142: a marker directly before another marker, or before the end of the stream, is a frame with an empty
payload; the stream engine delivers it, and it decodes to `TooShort`. That the stored scan state stays in the
first drain is the model's choice (log 12). -/
def Obligations.EmptyFrameIsDelivered : Prop :=
  (∀ (r : Bytes) (eos : Bool) (s : State),
    exec (.deframe (0xFE :: 0x02 :: 0xFE :: 0x02 :: r) eos) s
      = .next { s with response := some (.deframed ⟨[], 0xFE :: 0x02 :: r, true⟩) }) ∧
  (∀ s : State, exec (.deframe [0xFE, 0x02] true) s
      = .next { s with response := some (.deframed ⟨[], [], true⟩) }) ∧
  (∀ (r : Bytes) (s : State), s.rxKind = .stream → s.rxbuf = 0xFE :: 0x02 :: 0xFE :: 0x02 :: r →
    exec .rxDrain s = .next { s with
      rxbuf := 0xFE :: 0x02 :: r, rxout := s.rxout ++ [⟨[], .error .tooShort⟩],
      response := some (.found true) }) ∧
  (∀ s : State, s.rxKind = .stream → s.rxbuf = [0xFE, 0x02] → s.rxEos = true →
    ∃ t, exec .rxDrain s = .next t ∧ t.rxbuf = [] ∧ t.rxout = s.rxout ++ [⟨[], .error .tooShort⟩] ∧
      t.response = some (.found true))

/-- R137, R31, an inference of the spec's own: the scan state and the accumulator that `RXBUF` gives, in the
terms of the two scans. -/
def Obligations.ScanStateIsAFunctionOfTheBuffer : Prop :=
  ∀ buf : Bytes,
    (firstMarker buf = none →
      Serial.ofBuffer buf = if buf.getLast? = some 0xFE then ⟨.hunt1, []⟩ else ⟨.hunt0, []⟩) ∧
    (∀ k e, firstMarker buf = some k → boundary buf (k + 2) = .pending e →
      Serial.ofBuffer buf = ⟨.body1, unstuff ((buf.take e).drop (k + 2))⟩) ∧
    (∀ k n, firstMarker buf = some k → boundary buf (k + 2) = .atEnd n →
      Serial.ofBuffer buf = ⟨.body0, unstuff (buf.drop (k + 2))⟩) ∧
    (∀ k e, firstMarker buf = some k → boundary buf (k + 2) = .marker e →
      Serial.ofBuffer buf = Serial.ofBuffer (buf.drop e))

/-- R137, an inference of the spec's own: for every way of cutting a stream into chunks whose pushes are all
accepted, the feeds and the close deliver exactly the payloads the byte-serial machine emits, in order; with an
unbounded buffer every push is accepted. -/
def Obligations.SerialFormDeliversTheSamePayloads : Prop :=
  ∀ (chunks : List Bytes) (s : State), s.rxKind = .stream → s.rxbuf = [] → s.rxEos = false →
    (s.rxbufCap = none → s.acceptsFeeds chunks = true) ∧
    (s.acceptsFeeds chunks = true → ∃ t u, rxFeedAll chunks s = .next t ∧ rxClose t = .next u ∧
      u.rxout = s.rxout ++ (streamPayloads chunks.flatten).map recordOf)

/-- R144: however the frames of `p1 … pk` are cut into chunks, feeding the chunks from reset in stream mode
and closing delivers exactly `p1 … pk` in order; all but the last during the feeds, each no later than the
feed that brings the last byte of the following marker; without the close the last stays in `RXBUF`. -/
def Obligations.StreamReassembly : Prop :=
  ∀ (tx : TransportKind) (port : List Beat) (ps chunks : List Bytes),
    chunks.flatten = ps.flatMap frameBytes →
    (∃ t u, rxFeedAll chunks (State.resetWith tx .stream none port) = .next t ∧ rxClose t = .next u ∧
      t.rxout.map RxRecord.raw = ps.dropLast ∧ u.rxout.map RxRecord.raw = ps ∧
      (∀ p, ps.getLast? = some p → t.rxbuf = frameBytes p)) ∧
    (∀ (done todo : List Bytes) (j : Nat), chunks = done ++ todo → j < ps.length →
      (ps.take j).flatMap frameBytes ++ [0xFE, 0x02] <+: done.flatten →
      ∃ t, rxFeedAll done (State.resetWith tx .stream none port) = .next t ∧
        ps.take j <+: t.rxout.map RxRecord.raw)

/-! ## The stream engine -/

/-- R160: `TX_SEND` appends exactly one write unit, framed on a stream and unmodified as a datagram, in every
state, and nothing else changes but the result. -/
def Obligations.TxSendAppendsOneWriteUnit : Prop :=
  ∀ (b : Bytes) (s : State),
    (s.txKind = .stream → exec (.txSend b) s = .next { s with
      txout := s.txout ++ [[0xFE, 0x02] ++ stuff b], response := some .done }) ∧
    (s.txKind = .datagram → exec (.txSend b) s = .next { s with
      txout := s.txout ++ [b], response := some .done })

/-- R161: `RX_PUSH` appends the chunk when the channel is a stream, has not ended and has room, and is refused
otherwise. That the stored scan state moves over the same bytes is the model's choice (log 12), which rests on
an inference of the spec's own in R137. -/
def Obligations.RxPushAppendsOrIsRefused : Prop :=
  ∀ (c : Bytes) (s : State),
    (s.rxKind = .stream → s.rxEos = false →
      (∀ cap, s.rxbufCap = some cap → s.rxbuf.length + c.length ≤ cap) →
      exec (.rxPush c) s = .next { s with
        rxbuf := s.rxbuf ++ c, serial := (s.serial.run c).1, response := some .done }) ∧
    (s.rxKind = .datagram → exec (.rxPush c) s = .refused .wrongTransportKind) ∧
    (s.rxKind = .stream → s.rxEos = true → exec (.rxPush c) s = .refused .streamEnded) ∧
    (∀ cap, s.rxKind = .stream → s.rxEos = false → s.rxbufCap = some cap →
      cap < s.rxbuf.length + c.length → exec (.rxPush c) s = .refused .bufferFull)

/-- R161: chunk boundaries carry no meaning: pushing `c1` then `c2` leaves the same state as pushing
`c1 ++ c2`. -/
def Obligations.ChunkBoundariesCarryNoMeaning : Prop :=
  ∀ (c d : Bytes) (s u : State), exec (.rxPush (c ++ d)) s = .next u →
    ∃ t, exec (.rxPush c) s = .next t ∧ exec (.rxPush d) t = .next u

/-- R162: what one `RX_DRAIN` does, in terms of `DEFRAME` and `DECODE`: it delivers one record and keeps the
remainder, or empties an ended channel, or changes nothing; in datagram mode it is refused. How the stored scan
state follows the buffer (the `eos` step, kept, or reset) is the model's choice (log 12), which rests on an
inference of the spec's own in R137. -/
def Obligations.RxDrainDeliversOneFrame : Prop :=
  ∀ (s : State) (d : Deframed), d = deframeBytes s.rxbuf s.rxEos →
    (s.rxKind = .stream → d.found = true → exec .rxDrain s = .next { s with
      rxbuf := d.rest, serial := if d.rest = [] then s.serial.eos.1 else s.serial,
      rxout := s.rxout ++ [⟨d.payload, decodeImageBytes d.payload⟩], response := some (.found true) }) ∧
    (s.rxKind = .stream → d.found = false → s.rxEos = true → exec .rxDrain s = .next { s with
      rxbuf := [], rxEos := false, serial := Serial.reset, response := some (.found false) }) ∧
    (s.rxKind = .stream → d.found = false → s.rxEos = false →
      exec .rxDrain s = .next { s with response := some (.found false) }) ∧
    (s.rxKind = .datagram → exec .rxDrain s = .refused .wrongTransportKind)

/-- R163: `RX_EOS` sets the flag and nothing else, and is refused in datagram mode. -/
def Obligations.RxEosSetsTheFlag : Prop :=
  ∀ s : State,
    (s.rxKind = .stream → exec .rxEos s = .next { s with rxEos := true, response := some .done }) ∧
    (s.rxKind = .datagram → exec .rxEos s = .refused .wrongTransportKind)

/-- R164: `RX_DGRAM` appends the datagram with its decoding and nothing else, and is refused in stream mode. -/
def Obligations.RxDgramDeliversTheDatagram : Prop :=
  ∀ (d : Bytes) (s : State),
    (s.rxKind = .datagram → exec (.rxDgram d) s = .next { s with
      rxout := s.rxout ++ [⟨d, decodeImageBytes d⟩], response := some .done }) ∧
    (s.rxKind = .stream → exec (.rxDgram d) s = .refused .wrongTransportKind)

/-- R165, R202: `RX_ABORT` is accepted in every state, empties `RXBUF` and clears `RX_EOS`, the logs and the
configuration untouched. That the stored scan state is back at reset with them rests on R221, an inference of the
spec's own, and on the model's storing it (log 12). -/
def Obligations.RxAbortEmptiesTheChannel : Prop :=
  ∀ s : State, exec .rxAbort s = .next { s with
    rxbuf := [], rxEos := false, serial := ⟨.hunt0, []⟩, response := some .done }

/-- R83: command code `0x0` is refused, by its meaning and by the step; an `rst` behind it resets all the same
(R220); the other fifteen codes are read as other commands. The model's choices it rests on: the ports are one
list, `rst` among the transfers (log 1, log 14), the code has no operand (log 18), and a code alone is read with
an operand of zeros (log 9). -/
def Obligations.ReservedCommandIsRefused : Prop :=
  (∀ s : State, exec .reserved0 s = .refused .reservedCommand) ∧
  (∀ (s : State) (rest : List Beat), s.port = .cmd 0x0 :: rest →
    (firstReset rest = none → step s = .refused .reservedCommand) ∧
    (∀ tx rx rest', firstReset rest = some (tx, rx, rest') →
      step s = .next (State.resetWith tx rx s.rxbufCap rest'))) ∧
  (∀ w : Fin 16, w ≠ 0 → ∃ i, decodeTableWord 8 w = some i ∧ i ≠ .reserved0)

/-- R168: which commands are accepted in which state, one line per command; the wire layouts and tokens as
log 6 and log 7 have them. The pure commands answer without reading any state. -/
def Obligations.CommandsAreAcceptedExactlyWhenTheyMay : Prop :=
  (∀ (i : Instr) (s : State), (∃ t, exec i s = .next t) ↔ s.accepts i = true) ∧
  (∀ i, isPureCommand i = true → ∃ r, ∀ s, exec i s = .next { s with response := some r }) ∧
  (∀ p, ∃ r, ∀ s, exec (.encode p) s = .next { s with staging := [], response := some r })

/-- R166; what the buffer then holds is an inference of the spec's own ("derived: from rule R162 and
41_framing.md rule R135"): in stream mode `RX_FEED` ends with a drain that finds nothing, whether or not its push
is accepted; each drain that finds a frame takes at least 2 bytes from the buffer; afterwards the buffer holds no
start marker, or exactly one frame in progress behind whatever precedes its marker. The drains run on the state
the push leaves, which a refused push has not changed (R61). -/
def Obligations.RxFeedDrainsUntilNotFound : Prop :=
  (∀ s t : State, exec .rxDrain s = .next t → t.response = some (.found true) →
    t.rxbuf.length + 2 ≤ s.rxbuf.length) ∧
  (∀ (c : Bytes) (s : State), s.rxKind = .stream →
    ∃ t, rxFeed c s = .next t ∧ (deframeBytes t.rxbuf t.rxEos).found = false ∧
      (firstMarker t.rxbuf = none ∨
        ∃ k, firstMarker t.rxbuf = some k ∧ ∀ e, boundary t.rxbuf (k + 2) ≠ .marker e)) ∧
  (∀ (c : Bytes) (s : State),
    (∀ t, exec (.rxPush c) s = .next t → rxFeed c s = t.drainAll) ∧
    (∀ r, exec (.rxPush c) s = .refused r → rxFeed c s = s.drainAll))

/-- R167, R221: in stream mode `RX_CLOSE` delivers every frame still in the buffer, the last bounded by the
end of the stream, and leaves the channel in its reset state; logs, configuration and TX unit are as before. -/
def Obligations.RxCloseDeliversEveryFrame : Prop :=
  ∀ s : State, s.rxKind = .stream → ∃ u, rxClose s = .next u ∧
    u.rxbuf = [] ∧ u.rxEos = false ∧ u.serial = Serial.reset ∧
    u.rxout = s.rxout ++ (streamPayloads s.rxbuf).map recordOf ∧
    u.txKind = s.txKind ∧ u.rxKind = s.rxKind ∧ u.txout = s.txout

/-- R167: `SEND p` sends the image when `ENCODE p` has one, and sends nothing and answers the error when it
has none. -/
def Obligations.SendTransmitsOnlyAnImage : Prop :=
  ∀ (p : Packet) (s : State),
    (∀ e, encodeImageBytes p = .ok e → sendPacket p s = .next { s with
      staging := [], txout := s.txout ++ [if s.txKind = .stream then frameBytes e else e],
      response := some .done }) ∧
    (∀ k, encodeImageBytes p = .error k →
      sendPacket p s = .next { s with staging := [], response := some (.error k) })

/-- R201, R59: of two whole frames in the buffer both are delivered, in order, whatever they decode to, and
the buffer then begins at the marker behind them. -/
def Obligations.BadFramesDoNotBlockLaterOnes : Prop :=
  ∀ (a b r : Bytes) (s : State), s.rxKind = .stream →
    s.rxbuf = frameBytes a ++ frameBytes b ++ 0xFE :: 0x02 :: r →
    ∃ t u, exec .rxDrain s = .next t ∧ exec .rxDrain t = .next u ∧
      t.rxout = s.rxout ++ [recordOf a] ∧ u.rxout = s.rxout ++ [recordOf a, recordOf b] ∧
      u.rxbuf = 0xFE :: 0x02 :: r

/-! ## Rules over all instructions -/

/-- R30: both logs only grow, by at most one entry an instruction, and no operation reads them: with other
logs an instruction has the same outcome and appends the same entries. -/
def Obligations.LogsOnlyGrowAndAreNeverRead : Prop :=
  (∀ (i : Instr) (s t : State), exec i s = .next t →
    (∃ us, t.txout = s.txout ++ us ∧ us.length ≤ 1) ∧ (∃ rs, t.rxout = s.rxout ++ rs ∧ rs.length ≤ 1)) ∧
  (∀ (i : Instr) (s : State) (a : List Bytes) (b : List RxRecord),
    (∀ r, exec i s = .refused r → exec i { s with txout := a, rxout := b } = .refused r) ∧
    (∀ t us rs, exec i s = .next t → t.txout = s.txout ++ us → t.rxout = s.rxout ++ rs →
      exec i { s with txout := a, rxout := b } = .next { t with txout := a ++ us, rxout := b ++ rs }))

/-- R20, an inference of the spec's own: a TX command and an RX command give the same state, the same logs and
the same results in either order. The result port shows the later one's result (log 2). -/
def Obligations.TxAndRxCommandsCommute : Prop :=
  ∀ (i j : Instr) (s t : State), isTxCommand i = true → isRxCommand j = true → exec i s = .next t →
    (∀ r, exec j t = .refused r → exec j s = .refused r) ∧
    (∀ u, exec j t = .next u → ∃ t' u', exec j s = .next t' ∧ exec i t' = .next u' ∧
      u = { u' with response := u.response } ∧ t'.response = u.response ∧ u'.response = t.response)

/-- R29, R201: no instruction reads the last result, so an error leaves nothing that a later operation could
read. -/
def Obligations.ErrorsLeaveNothingLatched : Prop :=
  ∀ (i : Instr) (s : State) (r : Option Response), exec i { s with response := r } = exec i s

/-- R190, R197: the status codes; the commands that never fail carry status `OK`, no result carries the code
of `ConnectionFailure` or a reserved one, and every accepted instruction leaves a result. -/
def Obligations.StatusCodesAreTheTable : Prop :=
  [ErrorKind.textTooLong, .tooShort, .lengthMismatch, .truncated, .unsupportedControlData, .packetTooLong,
    .connectionFailure].map ErrorKind.code = [0x1, 0x2, 0x3, 0x4, 0x5, 0x6, 0x7] ∧
  (∀ (i : Instr) (s t : State), exec i s = .next t →
    ∃ r, t.response = some r ∧ r.status.toNat ≤ 6 ∧
      ((∀ p, i ≠ .encode p) → (∀ b, i ≠ .decode b) → r.status = 0x0) ∧
      (∀ p, i = .encode p → r.status ∈ [0x0, 0x1, 0x6]) ∧
      (∀ b, i = .decode b → r.status ∈ [0x0, 0x2, 0x3, 0x4, 0x5]))

/-- R61 (an inference of the spec's own), R10: the state after a sequence of commands is the state obtained by
applying them in issue order, and a command that is not accepted contributes nothing. -/
def Obligations.CommandsRunInIssueOrder : Prop :=
  (∀ (s : State) (i : Instr), s.accepts i = false → s.issue i = s) ∧
  (∀ (s t : State) (i : Instr) (is : List Instr), exec i s = .next t →
    s.issueAll (i :: is) = t.issueAll is) ∧
  (∀ (s : State) (is js : List Instr), s.issueAll (is ++ js) = (s.issueAll is).issueAll js)

/-! ## The wire layouts and the stream tokens -/

/-- R71 to R76; that a layout is read onto the result port is the model's (log 6): each layout answers its
fields, in every state, and nothing else changes. The PBC declares an image of PBC + 2 bytes (R73), the text
length a message of 6 + TextLen bytes (R72). -/
def Obligations.LayoutsAnswerTheirFields : Prop :=
  ∀ s : State,
    (∀ (pbc : Half) (v f : Byte) (scr : Half), exec (.packetFixed pbc v f scr) s
      = .next { s with response := some (.packetFields pbc v f scr (pbc.toNat + 2)) }) ∧
    (∀ i c t : Half, exec (.messageFixed i c t) s
      = .next { s with response := some (.messageFields i c t (6 + t.toNat)) }) ∧
    (∀ (cw : Half) (d : BitVec 1) (u : BitVec 7) (b l t r : BitVec 2),
      d = BitVec.ofNat 1 (cw.toNat / 32768) → u = BitVec.ofNat 7 (cw.toNat / 256 % 128) →
      b = BitVec.ofNat 2 (cw.toNat / 64 % 4) → l = BitVec.ofNat 2 (cw.toNat / 16 % 4) →
      t = BitVec.ofNat 2 (cw.toNat / 4 % 4) → r = BitVec.ofNat 2 (cw.toNat % 4) →
      exec (.controlWord cw) s = .next { s with response := some (.controlFields d u b l t r) }) ∧
    (∀ (f : Byte) (u : BitVec 7) (e : BitVec 1),
      u = BitVec.ofNat 7 (f.toNat / 2) → e = BitVec.ofNat 1 (f.toNat % 2) →
      exec (.flags f) s = .next { s with response := some (.flagsFields u e) })

/-- R78, R161; that a token reaches the block as pushed bytes is the model's (log 7): a token is accepted
when its bytes fit an open stream, is refused otherwise, and appends exactly its bytes. -/
def Obligations.TokensReachTheReceiveBuffer : Prop :=
  ∀ (i : Instr) (c : Bytes) (s : State),
    (i = .sof ∧ c = [0xFE, 0x02]) ∨ (i = .escFe ∧ c = [0xFE, 0xFE]) ∨ (∃ x, i = .lit x ∧ c = [x]) ∨
      (i = .loneFe ∧ c = [0xFE]) →
    (s.rxKind = .stream → s.rxEos = false →
      (∀ cap, s.rxbufCap = some cap → s.rxbuf.length + c.length ≤ cap) →
      exec i s = .next { s with
        rxbuf := s.rxbuf ++ c, serial := (s.serial.run c).1, response := some .done }) ∧
    (s.rxKind = .datagram → exec i s = .refused .wrongTransportKind) ∧
    (s.rxKind = .stream → s.rxEos = true → exec i s = .refused .streamEnded) ∧
    (∀ cap, s.rxKind = .stream → s.rxEos = false → s.rxbufCap = some cap →
      cap < s.rxbuf.length + c.length → exec i s = .refused .bufferFull)

/-- R78, R137 (log 7): inside a frame on a token boundary, `LIT x` adds `x` to the payload, `ESC_FE` adds one
`FE`, `SOF` starts a new one, and `LONE_FE` adds one `FE`, its follower being read as the next token. -/
def Obligations.TokensBuildThePayload : Prop :=
  ∀ (s t : State) (acc : Bytes), s.serial = ⟨.body0, acc⟩ →
    (∀ x, x ≠ 0xFE → exec (.lit x) s = .next t → t.serial = ⟨.body0, acc ++ [x]⟩) ∧
    (exec .escFe s = .next t → t.serial = ⟨.body0, acc ++ [0xFE]⟩) ∧
    (exec .sof s = .next t → t.serial = ⟨.body0, []⟩) ∧
    (exec .loneFe s = .next t → t.serial.payload = acc ++ [0xFE] ∧
      ∀ y u, y ≠ 0xFE → y ≠ 0x02 → exec (.lit y) t = .next u →
        u.serial = ⟨.body0, acc ++ [0xFE, y]⟩)

/-- R78, R137, R162 (log 7): when no whole frame stands in the buffer and the de-framer is inside a frame on a
token boundary, a start marker that arrives ends the frame, and the next drain delivers exactly the payload
the byte-serial de-framer has built. -/
def Obligations.StartMarkerClosesTheFrameInProgress : Prop :=
  ∀ s t : State, s.Inv → (deframeBytes s.rxbuf false).found = false → s.serial.scan = .body0 →
    exec .sof s = .next t →
    ∃ u, exec .rxDrain t = .next u ∧ u.rxout = s.rxout ++ [recordOf s.serial.acc] ∧
      u.rxbuf = [0xFE, 0x02] ∧ u.response = some (.found true)

/-- R85, R61, R198, R166: a feed whose push is refused delivers all the same what the buffer already holds: every
frame when the stream has ended (P5, steps 10 to 12), and else every frame whose next marker stands in the
buffer. In datagram mode each of its commands is refused, and so is the feed (log 24). -/
def Obligations.FeedWithARefusedPushStillDrains : Prop :=
  ∀ (c : Bytes) (s : State), s.acceptsBytes c = false →
    (s.rxKind = .stream → s.rxEos = true → ∃ u, rxFeed c s = .next u ∧ u.rxbuf = [] ∧ u.rxEos = false ∧
      u.rxout = s.rxout ++ (streamPayloads s.rxbuf).map recordOf) ∧
    (s.rxKind = .stream → s.rxEos = false → ∃ u, rxFeed c s = .next u ∧ u.rxEos = false ∧
      u.rxout = s.rxout ++ (Serial.reset.run s.rxbuf).2.map recordOf) ∧
    (s.rxKind = .datagram → rxFeed c s = .refused .wrongTransportKind)
end

