-- ==== Sys2Proof/Laws/Bytes.lean ====
section
/-! SUPPORT. The byte order laws of R52, and reads past a known beginning of a string. -/

namespace Sys2Proof

@[simp] theorem le16_length (v : Half) : (le16 v).length = 2 := rfl

@[simp] theorem rd8_cons_zero (x : Byte) (r : Bytes) : rd8 (x :: r) 0 = x := rfl

@[simp] theorem rd8_cons_succ (x : Byte) (r : Bytes) (o : Nat) : rd8 (x :: r) (o + 1) = rd8 r o := rfl

/-- R9: `rd16` as a number. -/
theorem rd16_toNat (b : Bytes) (o : Nat) :
    (rd16 b o).toNat = (rd8 b o).toNat + 256 * (rd8 b (o + 1)).toNat := by
  have h := (rd8 b o).isLt
  rw [rd16, BitVec.toNat_append, Nat.shiftLeft_eq, Nat.mul_comm, Nat.add_comm]
  rw [← Nat.two_pow_add_eq_or_of_lt h]
  omega

/-- R52: a 16-bit field reads back as it was written, whatever follows it. -/
theorem rd16_le16_append (v : Half) (r : Bytes) : rd16 (le16 v ++ r) 0 = v := by
  apply BitVec.eq_of_toNat_eq
  have h := v.isLt
  rw [rd16_toNat]
  simp [le16, BitVec.extractLsb'_toNat, Nat.shiftRight_eq_div_pow]
  omega

/-- R52: two bytes are written back as they were read. -/
theorem le16_rd16_pair (x y : Byte) (r : Bytes) : le16 (rd16 (x :: y :: r) 0) = [x, y] := by
  have h : (rd16 (x :: y :: r) 0).toNat = x.toNat + 256 * y.toNat := by
    rw [rd16_toNat, rd8_cons_zero, rd8_cons_succ, rd8_cons_zero]
  have hx := x.isLt
  have hy := y.isLt
  simp only [le16, List.cons.injEq, and_true]
  constructor <;> apply BitVec.eq_of_toNat_eq <;>
    simp only [BitVec.extractLsb'_toNat, h, Nat.shiftRight_eq_div_pow] <;> omega

/-- A read behind a known beginning. -/
theorem rd8_append_right (a b : Bytes) (o : Nat) : rd8 (a ++ b) (a.length + o) = rd8 b o := by
  simp only [rd8, List.getD_eq_getElem?_getD]
  rw [List.getElem?_append_right (by omega), Nat.add_sub_cancel_left]

/-- A read behind a known beginning. -/
theorem rd16_append_right (a b : Bytes) (o : Nat) : rd16 (a ++ b) (a.length + o) = rd16 b o := by
  rw [rd16, rd16, Nat.add_assoc, rd8_append_right, rd8_append_right]

/-- A read inside a known beginning. -/
theorem rd8_append_left (a b : Bytes) (o : Nat) (h : o < a.length) : rd8 (a ++ b) o = rd8 a o := by
  simp [rd8, List.getD_eq_getElem?_getD, List.getElem?_append_left h]

end Sys2Proof
end

