-- ==== Sys2Proof/Laws/Framing.lean ====
section
/-! SUPPORT. What the framing functions do, token by token (R78, R130 to R137). -/

namespace Sys2Proof.Machine

@[simp] theorem stuff_nil : stuff [] = [] := rfl

/-- R130: an `FE` is emitted twice. -/
@[simp] theorem stuff_esc (r : Bytes) : stuff (Config.esc :: r) = Config.esc :: Config.esc :: stuff r := by
  simp [stuff]

/-- R130: any other byte is copied once. -/
theorem stuff_other (x : Byte) (r : Bytes) (h : x ≠ Config.esc) : stuff (x :: r) = x :: stuff r := by
  simp [stuff, h]

/-- R130: stuffing goes byte by byte. -/
theorem stuff_append (a b : Bytes) : stuff (a ++ b) = stuff a ++ stuff b := by
  induction a with
  | nil => rfl
  | cons x r ih => simp [stuff, ih]

@[simp] theorem unstuff_nil : unstuff [] = [] := rfl

/-- R132: a pair collapses. -/
@[simp] theorem unstuff_pair (r : Bytes) :
    unstuff (Config.esc :: Config.esc :: r) = Config.esc :: unstuff r := by
  simp [unstuff]

/-- R132: any other byte is passed through. -/
theorem unstuff_other (x : Byte) (r : Bytes) (h : x ≠ Config.esc) : unstuff (x :: r) = x :: unstuff r := by
  cases r <;> simp [unstuff, h]

/-- R132, R140: a lone `FE` is passed through, and its follower is read as the next byte. -/
theorem unstuff_lone (y : Byte) (r : Bytes) (h : y ≠ Config.esc) :
    unstuff (Config.esc :: y :: r) = Config.esc :: unstuff (y :: r) := by
  simp [unstuff, h]

@[simp] theorem boundaryFrom_nil (j : Nat) : boundaryFrom j [] = .atEnd j := rfl

/-- R134: `LIT`. -/
theorem boundaryFrom_lit (j : Nat) (x : Byte) (r : Bytes) (h : x ≠ Config.esc) :
    boundaryFrom j (x :: r) = boundaryFrom (j + 1) r := by
  cases r <;> simp [boundaryFrom, h]

/-- R134: `ESC_FE`. -/
@[simp] theorem boundaryFrom_pair (j : Nat) (r : Bytes) :
    boundaryFrom j (Config.esc :: Config.esc :: r) = boundaryFrom (j + 2) r := by
  simp [boundaryFrom]

/-- R134: `SOF`. -/
@[simp] theorem boundaryFrom_sof (j : Nat) (r : Bytes) :
    boundaryFrom j (Config.esc :: Config.stx :: r) = .marker j := by
  simp [boundaryFrom, show Config.stx ≠ Config.esc by decide]

/-- R134: `LONE_FE`. -/
theorem boundaryFrom_lone (j : Nat) (y : Byte) (r : Bytes) (he : y ≠ Config.esc) (hs : y ≠ Config.stx) :
    boundaryFrom j (Config.esc :: y :: r) = boundaryFrom (j + 1) (y :: r) := by
  simp [boundaryFrom, he, hs]

/-- R134: an `FE` as the last byte is pending. -/
@[simp] theorem boundaryFrom_pending (j : Nat) : boundaryFrom j [Config.esc] = .pending j := by
  simp [boundaryFrom]

/-- R133: a marker at the front is the first one. -/
@[simp] theorem firstMarker_marker (r : Bytes) :
    firstMarker (Config.esc :: Config.stx :: r) = some 0 := by
  simp [firstMarker]

/-- R137: the byte-serial machine reads a string as it reads its parts. -/
theorem Serial.run_append (m : Serial) (a b : Bytes) :
    m.run (a ++ b) = (((m.run a).1.run b).1, (m.run a).2 ++ ((m.run a).1.run b).2) := by
  induction a generalizing m with
  | nil => rfl
  | cons x r ih => simp [Serial.run, ih]

/-- R31(b): bytes appended to the buffer move the scan state on from where it was. -/
theorem Serial.ofBuffer_append (a b : Bytes) :
    Serial.ofBuffer (a ++ b) = ((Serial.ofBuffer a).run b).1 := by
  simp [Serial.ofBuffer, Serial.run_append]

/-- R137: the end of the stream leaves no frame in progress. -/
theorem Serial.eos_scan (m : Serial) : m.eos.1.scan = .hunt0 := by
  obtain ⟨scan, acc⟩ := m
  cases scan <;> rfl

/-- R135, R138: what `DEFRAME` can answer. -/
theorem deframeBytes_cases (buf : Bytes) (eos : Bool) :
    (deframeBytes buf eos = ⟨[], buf, false⟩ ∧ (eos = false ∨ firstMarker buf = none)) ∨
    (∃ s e, firstMarker buf = some s ∧ boundary buf (s + 2) = .marker e ∧
      deframeBytes buf eos = ⟨unstuff ((buf.take e).drop (s + 2)), buf.drop e, true⟩) ∨
    (∃ s, firstMarker buf = some s ∧ (∀ e, boundary buf (s + 2) ≠ .marker e) ∧ eos = true ∧
      deframeBytes buf eos = ⟨unstuff (buf.drop (s + 2)), [], true⟩) := by
  unfold deframeBytes
  cases hf : firstMarker buf with
  | none => simp
  | some s => cases hb : boundary buf (s + 2) <;> cases eos <;> simp [hb]

end Sys2Proof.Machine
end

