-- ==== Sys2Proof/Laws/State.lean ====
section
/-! SUPPORT. One lemma per field and update of the state, so that no proof unfolds a record update. -/

namespace Sys2Proof.Machine

section
variable (s : State)

@[simp] theorem State.respond_txKind (r : Response) : (s.respond r).txKind = s.txKind := rfl
@[simp] theorem State.respond_rxKind (r : Response) : (s.respond r).rxKind = s.rxKind := rfl
@[simp] theorem State.respond_rxbufCap (r : Response) : (s.respond r).rxbufCap = s.rxbufCap := rfl
@[simp] theorem State.respond_rxbuf (r : Response) : (s.respond r).rxbuf = s.rxbuf := rfl
@[simp] theorem State.respond_rxEos (r : Response) : (s.respond r).rxEos = s.rxEos := rfl
@[simp] theorem State.respond_txout (r : Response) : (s.respond r).txout = s.txout := rfl
@[simp] theorem State.respond_rxout (r : Response) : (s.respond r).rxout = s.rxout := rfl
@[simp] theorem State.respond_staging (r : Response) : (s.respond r).staging = s.staging := rfl
@[simp] theorem State.respond_serial (r : Response) : (s.respond r).serial = s.serial := rfl
@[simp] theorem State.respond_response (r : Response) : (s.respond r).response = some r := rfl
@[simp] theorem State.respond_port (r : Response) : (s.respond r).port = s.port := rfl

@[simp] theorem State.takeError_txKind (k : ErrorKind) : (s.takeError k).txKind = s.txKind := rfl
@[simp] theorem State.takeError_rxKind (k : ErrorKind) : (s.takeError k).rxKind = s.rxKind := rfl
@[simp] theorem State.takeError_rxbufCap (k : ErrorKind) : (s.takeError k).rxbufCap = s.rxbufCap := rfl
@[simp] theorem State.takeError_rxbuf (k : ErrorKind) : (s.takeError k).rxbuf = s.rxbuf := rfl
@[simp] theorem State.takeError_rxEos (k : ErrorKind) : (s.takeError k).rxEos = s.rxEos := rfl
@[simp] theorem State.takeError_txout (k : ErrorKind) : (s.takeError k).txout = s.txout := rfl
@[simp] theorem State.takeError_rxout (k : ErrorKind) : (s.takeError k).rxout = s.rxout := rfl
@[simp] theorem State.takeError_staging (k : ErrorKind) : (s.takeError k).staging = s.staging := rfl
@[simp] theorem State.takeError_serial (k : ErrorKind) : (s.takeError k).serial = s.serial := rfl
@[simp] theorem State.takeError_response (k : ErrorKind) : (s.takeError k).response = some (.error k) := rfl
@[simp] theorem State.takeError_port (k : ErrorKind) : (s.takeError k).port = s.port := rfl

@[simp] theorem State.stage_txKind (body : Bytes) : (s.stage body).txKind = s.txKind := rfl
@[simp] theorem State.stage_rxKind (body : Bytes) : (s.stage body).rxKind = s.rxKind := rfl
@[simp] theorem State.stage_rxbufCap (body : Bytes) : (s.stage body).rxbufCap = s.rxbufCap := rfl
@[simp] theorem State.stage_rxbuf (body : Bytes) : (s.stage body).rxbuf = s.rxbuf := rfl
@[simp] theorem State.stage_rxEos (body : Bytes) : (s.stage body).rxEos = s.rxEos := rfl
@[simp] theorem State.stage_txout (body : Bytes) : (s.stage body).txout = s.txout := rfl
@[simp] theorem State.stage_rxout (body : Bytes) : (s.stage body).rxout = s.rxout := rfl
@[simp] theorem State.stage_staging (body : Bytes) : (s.stage body).staging = body := rfl
@[simp] theorem State.stage_serial (body : Bytes) : (s.stage body).serial = s.serial := rfl
@[simp] theorem State.stage_response (body : Bytes) : (s.stage body).response = s.response := rfl
@[simp] theorem State.stage_port (body : Bytes) : (s.stage body).port = s.port := rfl

@[simp] theorem State.releaseStaging_txKind : s.releaseStaging.txKind = s.txKind := rfl
@[simp] theorem State.releaseStaging_rxKind : s.releaseStaging.rxKind = s.rxKind := rfl
@[simp] theorem State.releaseStaging_rxbufCap : s.releaseStaging.rxbufCap = s.rxbufCap := rfl
@[simp] theorem State.releaseStaging_rxbuf : s.releaseStaging.rxbuf = s.rxbuf := rfl
@[simp] theorem State.releaseStaging_rxEos : s.releaseStaging.rxEos = s.rxEos := rfl
@[simp] theorem State.releaseStaging_txout : s.releaseStaging.txout = s.txout := rfl
@[simp] theorem State.releaseStaging_rxout : s.releaseStaging.rxout = s.rxout := rfl
@[simp] theorem State.releaseStaging_staging : s.releaseStaging.staging = [] := rfl
@[simp] theorem State.releaseStaging_serial : s.releaseStaging.serial = s.serial := rfl
@[simp] theorem State.releaseStaging_response : s.releaseStaging.response = s.response := rfl
@[simp] theorem State.releaseStaging_port : s.releaseStaging.port = s.port := rfl

@[simp] theorem State.transmit_txKind (u : Bytes) : (s.transmit u).txKind = s.txKind := rfl
@[simp] theorem State.transmit_rxKind (u : Bytes) : (s.transmit u).rxKind = s.rxKind := rfl
@[simp] theorem State.transmit_rxbufCap (u : Bytes) : (s.transmit u).rxbufCap = s.rxbufCap := rfl
@[simp] theorem State.transmit_rxbuf (u : Bytes) : (s.transmit u).rxbuf = s.rxbuf := rfl
@[simp] theorem State.transmit_rxEos (u : Bytes) : (s.transmit u).rxEos = s.rxEos := rfl
@[simp] theorem State.transmit_txout (u : Bytes) : (s.transmit u).txout = s.txout ++ [u] := rfl
@[simp] theorem State.transmit_rxout (u : Bytes) : (s.transmit u).rxout = s.rxout := rfl
@[simp] theorem State.transmit_staging (u : Bytes) : (s.transmit u).staging = s.staging := rfl
@[simp] theorem State.transmit_serial (u : Bytes) : (s.transmit u).serial = s.serial := rfl
@[simp] theorem State.transmit_response (u : Bytes) : (s.transmit u).response = s.response := rfl
@[simp] theorem State.transmit_port (u : Bytes) : (s.transmit u).port = s.port := rfl

@[simp] theorem State.deliver_txKind (raw : Bytes) : (s.deliver raw).txKind = s.txKind := rfl
@[simp] theorem State.deliver_rxKind (raw : Bytes) : (s.deliver raw).rxKind = s.rxKind := rfl
@[simp] theorem State.deliver_rxbufCap (raw : Bytes) : (s.deliver raw).rxbufCap = s.rxbufCap := rfl
@[simp] theorem State.deliver_rxbuf (raw : Bytes) : (s.deliver raw).rxbuf = s.rxbuf := rfl
@[simp] theorem State.deliver_rxEos (raw : Bytes) : (s.deliver raw).rxEos = s.rxEos := rfl
@[simp] theorem State.deliver_txout (raw : Bytes) : (s.deliver raw).txout = s.txout := rfl
@[simp] theorem State.deliver_rxout (raw : Bytes) : (s.deliver raw).rxout = s.rxout ++ [⟨raw, decodeImageBytes raw⟩] := rfl
@[simp] theorem State.deliver_staging (raw : Bytes) : (s.deliver raw).staging = s.staging := rfl
@[simp] theorem State.deliver_serial (raw : Bytes) : (s.deliver raw).serial = s.serial := rfl
@[simp] theorem State.deliver_response (raw : Bytes) : (s.deliver raw).response = s.response := rfl
@[simp] theorem State.deliver_port (raw : Bytes) : (s.deliver raw).port = s.port := rfl

@[simp] theorem State.pushBytes_txKind (c : Bytes) : (s.pushBytes c).txKind = s.txKind := rfl
@[simp] theorem State.pushBytes_rxKind (c : Bytes) : (s.pushBytes c).rxKind = s.rxKind := rfl
@[simp] theorem State.pushBytes_rxbufCap (c : Bytes) : (s.pushBytes c).rxbufCap = s.rxbufCap := rfl
@[simp] theorem State.pushBytes_rxbuf (c : Bytes) : (s.pushBytes c).rxbuf = s.rxbuf ++ c := rfl
@[simp] theorem State.pushBytes_rxEos (c : Bytes) : (s.pushBytes c).rxEos = s.rxEos := rfl
@[simp] theorem State.pushBytes_txout (c : Bytes) : (s.pushBytes c).txout = s.txout := rfl
@[simp] theorem State.pushBytes_rxout (c : Bytes) : (s.pushBytes c).rxout = s.rxout := rfl
@[simp] theorem State.pushBytes_staging (c : Bytes) : (s.pushBytes c).staging = s.staging := rfl
@[simp] theorem State.pushBytes_serial (c : Bytes) : (s.pushBytes c).serial = (s.serial.run c).1 := rfl
@[simp] theorem State.pushBytes_response (c : Bytes) : (s.pushBytes c).response = s.response := rfl
@[simp] theorem State.pushBytes_port (c : Bytes) : (s.pushBytes c).port = s.port := rfl

@[simp] theorem State.setRemainder_txKind (rest : Bytes) : (s.setRemainder rest).txKind = s.txKind := rfl
@[simp] theorem State.setRemainder_rxKind (rest : Bytes) : (s.setRemainder rest).rxKind = s.rxKind := rfl
@[simp] theorem State.setRemainder_rxbufCap (rest : Bytes) : (s.setRemainder rest).rxbufCap = s.rxbufCap := rfl
@[simp] theorem State.setRemainder_rxbuf (rest : Bytes) : (s.setRemainder rest).rxbuf = rest := rfl
@[simp] theorem State.setRemainder_rxEos (rest : Bytes) : (s.setRemainder rest).rxEos = s.rxEos := rfl
@[simp] theorem State.setRemainder_txout (rest : Bytes) : (s.setRemainder rest).txout = s.txout := rfl
@[simp] theorem State.setRemainder_rxout (rest : Bytes) : (s.setRemainder rest).rxout = s.rxout := rfl
@[simp] theorem State.setRemainder_staging (rest : Bytes) : (s.setRemainder rest).staging = s.staging := rfl
@[simp] theorem State.setRemainder_serial (rest : Bytes) : (s.setRemainder rest).serial = if rest = [] then s.serial.eos.1 else s.serial := rfl
@[simp] theorem State.setRemainder_response (rest : Bytes) : (s.setRemainder rest).response = s.response := rfl
@[simp] theorem State.setRemainder_port (rest : Bytes) : (s.setRemainder rest).port = s.port := rfl

@[simp] theorem State.emptyChannel_txKind : s.emptyChannel.txKind = s.txKind := rfl
@[simp] theorem State.emptyChannel_rxKind : s.emptyChannel.rxKind = s.rxKind := rfl
@[simp] theorem State.emptyChannel_rxbufCap : s.emptyChannel.rxbufCap = s.rxbufCap := rfl
@[simp] theorem State.emptyChannel_rxbuf : s.emptyChannel.rxbuf = [] := rfl
@[simp] theorem State.emptyChannel_rxEos : s.emptyChannel.rxEos = false := rfl
@[simp] theorem State.emptyChannel_txout : s.emptyChannel.txout = s.txout := rfl
@[simp] theorem State.emptyChannel_rxout : s.emptyChannel.rxout = s.rxout := rfl
@[simp] theorem State.emptyChannel_staging : s.emptyChannel.staging = s.staging := rfl
@[simp] theorem State.emptyChannel_serial : s.emptyChannel.serial = Serial.reset := rfl
@[simp] theorem State.emptyChannel_response : s.emptyChannel.response = s.response := rfl
@[simp] theorem State.emptyChannel_port : s.emptyChannel.port = s.port := rfl

@[simp] theorem State.endStream_txKind : s.endStream.txKind = s.txKind := rfl
@[simp] theorem State.endStream_rxKind : s.endStream.rxKind = s.rxKind := rfl
@[simp] theorem State.endStream_rxbufCap : s.endStream.rxbufCap = s.rxbufCap := rfl
@[simp] theorem State.endStream_rxbuf : s.endStream.rxbuf = s.rxbuf := rfl
@[simp] theorem State.endStream_rxEos : s.endStream.rxEos = true := rfl
@[simp] theorem State.endStream_txout : s.endStream.txout = s.txout := rfl
@[simp] theorem State.endStream_rxout : s.endStream.rxout = s.rxout := rfl
@[simp] theorem State.endStream_staging : s.endStream.staging = s.staging := rfl
@[simp] theorem State.endStream_serial : s.endStream.serial = s.serial := rfl
@[simp] theorem State.endStream_response : s.endStream.response = s.response := rfl
@[simp] theorem State.endStream_port : s.endStream.port = s.port := rfl

@[simp] theorem State.withPort_txKind (rest : List Beat) : (s.withPort rest).txKind = s.txKind := rfl
@[simp] theorem State.withPort_rxKind (rest : List Beat) : (s.withPort rest).rxKind = s.rxKind := rfl
@[simp] theorem State.withPort_rxbufCap (rest : List Beat) : (s.withPort rest).rxbufCap = s.rxbufCap := rfl
@[simp] theorem State.withPort_rxbuf (rest : List Beat) : (s.withPort rest).rxbuf = s.rxbuf := rfl
@[simp] theorem State.withPort_rxEos (rest : List Beat) : (s.withPort rest).rxEos = s.rxEos := rfl
@[simp] theorem State.withPort_txout (rest : List Beat) : (s.withPort rest).txout = s.txout := rfl
@[simp] theorem State.withPort_rxout (rest : List Beat) : (s.withPort rest).rxout = s.rxout := rfl
@[simp] theorem State.withPort_staging (rest : List Beat) : (s.withPort rest).staging = s.staging := rfl
@[simp] theorem State.withPort_serial (rest : List Beat) : (s.withPort rest).serial = s.serial := rfl
@[simp] theorem State.withPort_response (rest : List Beat) : (s.withPort rest).response = s.response := rfl
@[simp] theorem State.withPort_port (rest : List Beat) : (s.withPort rest).port = rest := rfl

@[simp] theorem State.present_txKind (i : Instr) : (s.present i).txKind = s.txKind := rfl
@[simp] theorem State.present_rxKind (i : Instr) : (s.present i).rxKind = s.rxKind := rfl
@[simp] theorem State.present_rxbufCap (i : Instr) : (s.present i).rxbufCap = s.rxbufCap := rfl
@[simp] theorem State.present_rxbuf (i : Instr) : (s.present i).rxbuf = s.rxbuf := rfl
@[simp] theorem State.present_rxEos (i : Instr) : (s.present i).rxEos = s.rxEos := rfl
@[simp] theorem State.present_txout (i : Instr) : (s.present i).txout = s.txout := rfl
@[simp] theorem State.present_rxout (i : Instr) : (s.present i).rxout = s.rxout := rfl
@[simp] theorem State.present_staging (i : Instr) : (s.present i).staging = s.staging := rfl
@[simp] theorem State.present_serial (i : Instr) : (s.present i).serial = s.serial := rfl
@[simp] theorem State.present_response (i : Instr) : (s.present i).response = s.response := rfl
@[simp] theorem State.present_port (i : Instr) : (s.present i).port = encodePort i := rfl

@[simp] theorem State.assertReset_txKind (tx rx : TransportKind) (rest : List Beat) : (s.assertReset tx rx rest).txKind = tx := rfl
@[simp] theorem State.assertReset_rxKind (tx rx : TransportKind) (rest : List Beat) : (s.assertReset tx rx rest).rxKind = rx := rfl
@[simp] theorem State.assertReset_rxbufCap (tx rx : TransportKind) (rest : List Beat) : (s.assertReset tx rx rest).rxbufCap = s.rxbufCap := rfl
@[simp] theorem State.assertReset_rxbuf (tx rx : TransportKind) (rest : List Beat) : (s.assertReset tx rx rest).rxbuf = [] := rfl
@[simp] theorem State.assertReset_rxEos (tx rx : TransportKind) (rest : List Beat) : (s.assertReset tx rx rest).rxEos = false := rfl
@[simp] theorem State.assertReset_txout (tx rx : TransportKind) (rest : List Beat) : (s.assertReset tx rx rest).txout = [] := rfl
@[simp] theorem State.assertReset_rxout (tx rx : TransportKind) (rest : List Beat) : (s.assertReset tx rx rest).rxout = [] := rfl
@[simp] theorem State.assertReset_staging (tx rx : TransportKind) (rest : List Beat) : (s.assertReset tx rx rest).staging = [] := rfl
@[simp] theorem State.assertReset_serial (tx rx : TransportKind) (rest : List Beat) : (s.assertReset tx rx rest).serial = Serial.reset := rfl
@[simp] theorem State.assertReset_response (tx rx : TransportKind) (rest : List Beat) : (s.assertReset tx rx rest).response = none := rfl
@[simp] theorem State.assertReset_port (tx rx : TransportKind) (rest : List Beat) : (s.assertReset tx rx rest).port = rest := rfl

end

section
variable (tx rx : TransportKind) (cap : Option Nat) (port : List Beat)

@[simp] theorem State.resetWith_txKind : (State.resetWith tx rx cap port).txKind = tx := rfl
@[simp] theorem State.resetWith_rxKind : (State.resetWith tx rx cap port).rxKind = rx := rfl
@[simp] theorem State.resetWith_rxbufCap : (State.resetWith tx rx cap port).rxbufCap = cap := rfl
@[simp] theorem State.resetWith_rxbuf : (State.resetWith tx rx cap port).rxbuf = [] := rfl
@[simp] theorem State.resetWith_rxEos : (State.resetWith tx rx cap port).rxEos = false := rfl
@[simp] theorem State.resetWith_txout : (State.resetWith tx rx cap port).txout = [] := rfl
@[simp] theorem State.resetWith_rxout : (State.resetWith tx rx cap port).rxout = [] := rfl
@[simp] theorem State.resetWith_staging : (State.resetWith tx rx cap port).staging = [] := rfl
@[simp] theorem State.resetWith_serial : (State.resetWith tx rx cap port).serial = Serial.reset := rfl
@[simp] theorem State.resetWith_response : (State.resetWith tx rx cap port).response = none := rfl
@[simp] theorem State.resetWith_port : (State.resetWith tx rx cap port).port = port := rfl

end

@[simp] theorem Serial.reset_scan : Serial.reset.scan = .hunt0 := rfl
@[simp] theorem Serial.reset_acc : Serial.reset.acc = [] := rfl

end Sys2Proof.Machine
end

