-- ==== Sys2Proof/Laws/Ops.lean ====
section
/-! SUPPORT. What each shared operation and the step can do, said once: later proofs cite these and do not
unfold the operations. -/

namespace Sys2Proof.Machine

/-- R161: what fits. -/
theorem State.fits_iff (s : State) (c : Bytes) :
    s.fits c = true ↔ ∀ cap, s.rxbufCap = some cap → s.rxbuf.length + c.length ≤ cap := by
  unfold State.fits
  cases s.rxbufCap <;> simp

/-- R27: the receive buffer is within its capacity. -/
theorem State.withinCapacity_iff (s : State) :
    s.withinCapacity = true ↔ ∀ cap, s.rxbufCap = some cap → s.rxbuf.length ≤ cap := by
  unfold State.withinCapacity
  cases s.rxbufCap <;> simp

/-- R161: the three conditions under which bytes are accepted. -/
theorem State.acceptsBytes_iff (s : State) (c : Bytes) :
    s.acceptsBytes c = true ↔ s.rxKind = .stream ∧ s.rxEos = false ∧ s.fits c = true := by
  simp [State.acceptsBytes, and_assoc]

/-- R161: bytes that are accepted are appended. -/
theorem receiveBytes_accepted (c : Bytes) (s : State) (h : s.acceptsBytes c = true) :
    receiveBytes c s = .next ((s.pushBytes c).respond .done) := by
  obtain ⟨hk, he, hf⟩ := (s.acceptsBytes_iff c).1 h
  simp [receiveBytes, hk, he, hf]

/-- R161: if bytes lead to a next state, they were accepted, and the state is this one. -/
theorem receiveBytes_next (c : Bytes) (s t : State) (h : receiveBytes c s = .next t) :
    s.acceptsBytes c = true ∧ t = (s.pushBytes c).respond .done := by
  unfold receiveBytes at h
  split at h
  · cases h
  · split at h
    · cases h
    · split at h
      · cases h
        refine ⟨(s.acceptsBytes_iff c).2 ⟨?_, by simp_all, by assumption⟩, rfl⟩
        cases hk : s.rxKind <;> simp_all
      · cases h

/-- R100: `ENCODE` answers what the codec's function answers, and leaves the staging store empty. -/
theorem execEncode_eq (p : Packet) (s : State) :
    execEncode p s = .next (s.releaseStaging.respond (Response.ofEncode (encodeImageBytes p))) := by
  unfold execEncode encodeImageBytes
  split
  · rw [State.stage_staging]
    cases sealImage (packetBody p) <;> rfl
  · rfl

/-- R102: `DECODE` answers what the codec's function answers. -/
theorem execDecode_eq (b : Bytes) (s : State) :
    execDecode b s = .next (s.respond (Response.ofDecode (decodeImageBytes b))) := by
  unfold execDecode
  cases decodeImageBytes b <;> rfl

/-- R162: everything `RX_DRAIN` can do when it is accepted. -/
theorem execRxDrain_next (s t : State) (h : execRxDrain s = .next t) :
    s.rxKind = .stream ∧
    (((deframeBytes s.rxbuf s.rxEos).found = true ∧
        t = ((s.setRemainder (deframeBytes s.rxbuf s.rxEos).rest).deliver
          (deframeBytes s.rxbuf s.rxEos).payload).respond (.found true)) ∨
      ((deframeBytes s.rxbuf s.rxEos).found = false ∧ s.rxEos = true ∧
        t = s.emptyChannel.respond (.found false)) ∨
      ((deframeBytes s.rxbuf s.rxEos).found = false ∧ s.rxEos = false ∧
        t = s.respond (.found false))) := by
  unfold execRxDrain at h
  split at h
  · cases h
  · refine ⟨by cases hk : s.rxKind <;> simp_all, ?_⟩
    split at h
    · cases h
      exact .inl ⟨by assumption, rfl⟩
    · split at h
      · cases h
        exact .inr (.inl ⟨by simp_all, by assumption, rfl⟩)
      · cases h
        exact .inr (.inr ⟨by simp_all, by simp_all, rfl⟩)

/-- R220: with no `rst` on the ports the outcome stands. -/
theorem State.resetOr_none (s : State) (o : Host.Outcome State Fault Refusal) (h : firstReset s.port = none) :
    s.resetOr o = o := by
  simp [State.resetOr, h]

/-- R220: an `rst` on the ports resets. -/
theorem State.resetOr_some (s : State) (o : Host.Outcome State Fault Refusal) (tx rx : TransportKind)
    (rest : List Beat) (h : firstReset s.port = some (tx, rx, rest)) :
    s.resetOr o = .next (s.assertReset tx rx rest) := by
  simp [State.resetOr, h]

/-- R220: what stands behind a beginning without `rst` decides. -/
theorem firstReset_append (pre rest : List Beat) (h : firstReset pre = none) :
    firstReset (pre ++ rest) = firstReset rest := by
  induction pre with
  | nil => rfl
  | cons x r ih => cases x <;> first | exact ih h | cases h

/-- Everything `resetOr` can do when it leads to a next state. -/
theorem State.resetOr_next (s t : State) (o : Host.Outcome State Fault Refusal) (h : s.resetOr o = .next t) :
    (∃ tx rx rest, firstReset s.port = some (tx, rx, rest) ∧ t = s.assertReset tx rx rest) ∨
      (firstReset s.port = none ∧ o = .next t) := by
  cases hf : firstReset s.port with
  | none => exact .inr ⟨rfl, s.resetOr_none o hf ▸ h⟩
  | some p =>
    rw [s.resetOr_some o _ _ _ hf] at h
    cases h
    exact .inl ⟨_, _, _, rfl, rfl⟩

/-- An accepted instruction's outcome, with its transfers taken. -/
@[simp] theorem State.acceptTransfers_next (s : State) (rest : List Beat) (t : State) :
    s.acceptTransfers rest (.next t) = .next (t.withPort rest) := rfl

/-- A refused instruction's transfers are not taken; an `rst` behind it abandons it. -/
@[simp] theorem State.acceptTransfers_refused (s : State) (rest : List Beat) (r : Refusal) :
    s.acceptTransfers rest (.refused r) = s.resetOr (.refused r) := rfl

/-- R61: an accepted command contributes its effect. -/
@[simp] theorem State.after_next (s t : State) : s.after (.next t) = t := rfl

/-- R61: a refused command contributes nothing. -/
@[simp] theorem State.after_refused (s : State) (r : Refusal) : s.after (.refused r) = s := rfl

/-- R162: in stream mode a drain is accepted, and the mode stays. -/
theorem execRxDrain_stream (s : State) (h : s.rxKind = .stream) :
    ∃ t, execRxDrain s = .next t ∧ t.rxKind = .stream := by
  unfold execRxDrain
  rw [if_neg (by simp [h])]
  split
  · exact ⟨_, rfl, h⟩
  · split <;> exact ⟨_, rfl, h⟩

/-- R166: in stream mode the drains come to an end. -/
theorem drainUntilNotFound_stream (n : Nat) (s : State) (h : s.rxKind = .stream) :
    ∃ t, drainUntilNotFound n s = .next t ∧ t.rxKind = .stream := by
  induction n generalizing s with
  | zero => exact ⟨s, rfl, h⟩
  | succ n ih =>
    obtain ⟨t, ht, hk⟩ := execRxDrain_stream s h
    by_cases hf : t.response = some (.found true)
    · obtain ⟨u, hu⟩ := ih t hk
      exact ⟨u, by simp only [drainUntilNotFound, ht, if_pos hf, hu.1], hu.2⟩
    · exact ⟨t, by simp only [drainUntilNotFound, ht, if_neg hf], hk⟩

/-- R61, R166: a feed whose push is refused is its drains alone. -/
theorem rxFeed_refused (c : Bytes) (s : State) (r : Refusal) (h : execRxPush c s = .refused r) :
    rxFeed c s = s.drainAll := by
  simp [rxFeed, h]

/-- R166: a feed whose push is accepted drains the buffer with the chunk in it. -/
theorem rxFeed_accepted (c : Bytes) (s t : State) (h : execRxPush c s = .next t) :
    rxFeed c s = t.drainAll := by
  simp [rxFeed, h]

/-- Everything a step can do when it leads to a next state: wait, take a reset in place of what is not
accepted, or run the instruction that stands first on the ports. -/
theorem step_next (s t : State) (h : step s = .next t) :
    t = s ∨
    (∃ tx rx rest, (∀ i r u, decodePort s.port = .ok (i, r) → exec i s ≠ .next u) ∧
      firstReset s.port = some (tx, rx, rest) ∧ t = s.assertReset tx rx rest) ∨
    (∃ i rest u, decodePort s.port = .ok (i, rest) ∧ exec i s = .next u ∧ t = u.withPort rest) := by
  unfold step at h
  cases hd : decodePort s.port with
  | ok p =>
    obtain ⟨i, rest⟩ := p
    rw [hd] at h
    cases he : exec i s with
    | next u =>
      simp only [he, State.acceptTransfers_next] at h
      cases h
      exact .inr (.inr ⟨i, rest, u, rfl, he, rfl⟩)
    | fault f => cases f
    | refused r =>
      simp only [he, State.acceptTransfers_refused] at h
      rcases s.resetOr_next t _ h with ⟨tx, rx, rest', hf, ht⟩ | ⟨-, ho⟩
      · refine .inr (.inl ⟨tx, rx, rest', ?_, hf, ht⟩)
        intro i' r' u hi
        cases hi
        simp [he]
      · cases ho
  | error e =>
    rw [hd] at h
    cases e with
    | incomplete => cases h; exact .inl rfl
    | pendingFe => cases h; exact .inl rfl
    | abandoned =>
      rcases s.resetOr_next t _ h with ⟨tx, rx, rest, hf, ht⟩ | ⟨-, ho⟩
      · exact .inr (.inl ⟨tx, rx, rest, (fun _ _ _ hi => by cases hi), hf, ht⟩)
      · cases ho; exact .inl rfl
    | malformed =>
      rcases s.resetOr_next t _ h with ⟨tx, rx, rest, hf, ht⟩ | ⟨-, ho⟩
      · exact .inr (.inl ⟨tx, rx, rest, (fun _ _ _ hi => by cases hi), hf, ht⟩)
      · cases ho

/-- R61: a refused command contributes nothing. -/
theorem State.issue_refused (s : State) (i : Instr) (r : Refusal) (h : exec i s = .refused r) :
    s.issue i = s := by
  simp [State.issue, h]

/-- R61: an accepted command contributes its effect. -/
theorem State.issue_next (s t : State) (i : Instr) (h : exec i s = .next t) : s.issue i = t := by
  simp [State.issue, h]

end Sys2Proof.Machine
end

