-- ==== Sys2Proof/Laws/PerInstr.lean ====
section
/-! SUPPORT. Families of facts about the instructions as syntax, one lemma per constructor. -/

namespace Sys2Proof.Laws

/-- The transfer that opens an instruction on its input: the code of its command (R80), or the first byte of
its layout or token (R51, R53, R78). -/
def openingBeat : Instr → Beat
  | .reserved0 => .cmd 0x0
  | .encode _ => .cmd 0x1
  | .decode _ => .cmd 0x2
  | .frame _ => .cmd 0x3
  | .deframe _ _ => .cmd 0x4
  | .txSend _ => .cmd 0x5
  | .rxPush _ => .cmd 0x6
  | .rxDrain => .cmd 0x7
  | .rxEos => .cmd 0x8
  | .rxDgram _ => .cmd 0x9
  | .rxAbort => .cmd 0xA
  | .brightness _ => .cmd 0xB
  | .leftTally _ => .cmd 0xC
  | .textTally _ => .cmd 0xD
  | .rightTally _ => .cmd 0xE
  | .isControlData _ => .cmd 0xF
  | .packetFixed pbc _ _ _ => .image .packetFixed (pbc.extractLsb' 0 8)
  | .messageFixed index _ _ => .image .messageFixed (index.extractLsb' 0 8)
  | .controlWord cw => .image .controlWord (cw.extractLsb' 0 8)
  | .flags f => .image .flags f
  | .sof => .wire Config.esc
  | .escFe => .wire Config.esc
  | .lit x => .wire x
  | .loneFe => .wire Config.esc

/-- The transfers of an instruction begin with the one that opens it. -/
def EncodingOpensItsInput.Statement (i : Instr) : Prop := ∃ r, encodePort i = openingBeat i :: r

theorem EncodingOpensItsInput.reserved0 : EncodingOpensItsInput.Statement .reserved0 := ⟨_, rfl⟩

theorem EncodingOpensItsInput.encode (p : Packet) : EncodingOpensItsInput.Statement (.encode p) := ⟨_, rfl⟩

theorem EncodingOpensItsInput.decode (b : Bytes) : EncodingOpensItsInput.Statement (.decode b) := ⟨_, rfl⟩

theorem EncodingOpensItsInput.frame (b : Bytes) : EncodingOpensItsInput.Statement (.frame b) := ⟨_, rfl⟩

theorem EncodingOpensItsInput.deframe (b : Bytes) (eos : Bool) : EncodingOpensItsInput.Statement (.deframe b eos) := ⟨_, rfl⟩

theorem EncodingOpensItsInput.txSend (b : Bytes) : EncodingOpensItsInput.Statement (.txSend b) := ⟨_, rfl⟩

theorem EncodingOpensItsInput.rxPush (c : Bytes) : EncodingOpensItsInput.Statement (.rxPush c) := ⟨_, rfl⟩

theorem EncodingOpensItsInput.rxDrain : EncodingOpensItsInput.Statement .rxDrain := ⟨_, rfl⟩

theorem EncodingOpensItsInput.rxEos : EncodingOpensItsInput.Statement .rxEos := ⟨_, rfl⟩

theorem EncodingOpensItsInput.rxDgram (d : Bytes) : EncodingOpensItsInput.Statement (.rxDgram d) := ⟨_, rfl⟩

theorem EncodingOpensItsInput.rxAbort : EncodingOpensItsInput.Statement .rxAbort := ⟨_, rfl⟩

theorem EncodingOpensItsInput.brightness (cw : Half) : EncodingOpensItsInput.Statement (.brightness cw) := ⟨_, rfl⟩

theorem EncodingOpensItsInput.leftTally (cw : Half) : EncodingOpensItsInput.Statement (.leftTally cw) := ⟨_, rfl⟩

theorem EncodingOpensItsInput.textTally (cw : Half) : EncodingOpensItsInput.Statement (.textTally cw) := ⟨_, rfl⟩

theorem EncodingOpensItsInput.rightTally (cw : Half) : EncodingOpensItsInput.Statement (.rightTally cw) := ⟨_, rfl⟩

theorem EncodingOpensItsInput.isControlData (cw : Half) : EncodingOpensItsInput.Statement (.isControlData cw) := ⟨_, rfl⟩

theorem EncodingOpensItsInput.packetFixed (pbc : Half) (version : Byte) (flags : Byte) (screen : Half) : EncodingOpensItsInput.Statement (.packetFixed pbc version flags screen) := ⟨_, rfl⟩

theorem EncodingOpensItsInput.messageFixed (index : Half) (cw : Half) (textLen : Half) : EncodingOpensItsInput.Statement (.messageFixed index cw textLen) := ⟨_, rfl⟩

theorem EncodingOpensItsInput.controlWord (cw : Half) : EncodingOpensItsInput.Statement (.controlWord cw) := ⟨_, rfl⟩

theorem EncodingOpensItsInput.flags (f : Byte) : EncodingOpensItsInput.Statement (.flags f) := ⟨_, rfl⟩

theorem EncodingOpensItsInput.sof : EncodingOpensItsInput.Statement .sof := ⟨_, rfl⟩

theorem EncodingOpensItsInput.escFe : EncodingOpensItsInput.Statement .escFe := ⟨_, rfl⟩

theorem EncodingOpensItsInput.lit (x : Byte) : EncodingOpensItsInput.Statement (.lit x) := ⟨_, rfl⟩

theorem EncodingOpensItsInput.loneFe : EncodingOpensItsInput.Statement .loneFe := ⟨_, rfl⟩

end Sys2Proof.Laws
end

