-- ==== Sys2Proof/Tests/Slice0.lean ====
section
/-! SUPPORT. Tests. Expected results are the vectors of 95_test_vectors.md (named S, E, D, F, P in the
comments) or words written out from the tables of 30_encoding.md. -/

namespace Sys2Proof.Tests

open Sys2Proof Sys2Proof.Machine

/-! ## Helpers -/

/-- The next state of an outcome. -/
def nextOf : Host.Outcome State Fault Refusal → Option State
  | .next t => some t
  | _ => none

/-- The result of an outcome. -/
def resultOf (o : Host.Outcome State Fault Refusal) : Option Response := (nextOf o).bind State.response

/-- The refusal of an outcome. -/
def refusalOf : Host.Outcome State Fault Refusal → Option Refusal
  | .refused r => some r
  | _ => none

/-- A stream receiver with the given buffer and end-of-stream flag, as reset and pushes leave it. -/
def streamWith (buf : Bytes) (eos : Bool) : State :=
  { State.resetWith .stream .stream none [] with rxbuf := buf, rxEos := eos, serial := Serial.ofBuffer buf }

/-- A datagram block after reset. -/
def datagram : State := State.resetWith .datagram .datagram none []

/-- The source's example packet (S1) and its image; the text is "CAM 1". -/
def cam : Packet := ⟨0, 0, 0, [⟨1, 0x00D5, [0x43, 0x41, 0x4D, 0x20, 0x31]⟩]⟩

def camImage : Bytes :=
  [0x0F, 0, 0, 0, 0, 0, 0x01, 0, 0xD5, 0, 0x05, 0, 0x43, 0x41, 0x4D, 0x20, 0x31]

/-- A packet of one message with a text of `n` spaces (E4, E5). -/
def spaces (n : Nat) : Packet := ⟨0, 0, 0, [⟨0, 0, List.replicate n 0x20⟩]⟩

theorem spaces_over (n k : Nat) : (∃ m ∈ (spaces n).messages, k < m.text.length) ↔ k < n := by
  simp [spaces]

theorem spaces_within (n k : Nat) : (∀ m ∈ (spaces n).messages, m.text.length ≤ k) ↔ n ≤ k := by
  simp [spaces]

theorem spaces_textsFit (n : Nat) : textsFit (spaces n) = decide (n ≤ 2048) := by
  simp [textsFit, spaces, Config.maxText]

/-! ## Well-formedness: an ill-formed term for the one check -/

theorem test_lit_fe_is_ill_formed : (Instr.lit 0xFE).wellFormed = false := by decide

theorem test_lit_ff_is_well_formed : (Instr.lit 0xFF).wellFormed = true := by decide

/-! ## Decoding: each constructor from a word written out from its row (R80, R32; R71 to R76, R86; R78) -/

theorem test_read_reserved0 : decodePort [.cmd 0b0000] = .ok (.reserved0, []) := by rfl

theorem test_read_encode :
    decodePort [.cmd 0b0001, .header 0x7F 0x01 0x1234 false, .message 0x0001 0x00D5 false,
        .data 0x43 false, .data 0x41 true, .message 0x0002 0x7F1B true, .emptyString]
      = .ok (.encode ⟨0x7F, 0x01, 0x1234, [⟨1, 0x00D5, [0x43, 0x41]⟩, ⟨2, 0x7F1B, []⟩]⟩, []) := by rfl

theorem test_read_encode_empty :
    decodePort [.cmd 0b0001, .header 0 0 0x00FE true] = .ok (.encode ⟨0, 0, 0x00FE, []⟩, []) := by rfl

theorem test_read_decode :
    decodePort [.cmd 0b0010, .data 0x04 false, .data 0x00 true, .cmd 0b0111]
      = .ok (.decode [0x04, 0x00], [.cmd 0b0111]) := by rfl

theorem test_read_frame : decodePort [.cmd 0b0011, .emptyString] = .ok (.frame [], []) := by rfl

theorem test_read_deframe :
    decodePort [.cmd 0b0100, .data 0xFE true, .eosBit true] = .ok (.deframe [0xFE] true, []) := by rfl

theorem test_read_txSend : decodePort [.cmd 0b0101, .data 0x41 true] = .ok (.txSend [0x41], []) := by rfl

theorem test_read_rxPush : decodePort [.cmd 0b0110, .data 0x41 true] = .ok (.rxPush [0x41], []) := by rfl

theorem test_read_rxDrain : decodePort [.cmd 0b0111] = .ok (.rxDrain, []) := by rfl

theorem test_read_rxEos : decodePort [.cmd 0b1000] = .ok (.rxEos, []) := by rfl

theorem test_read_rxDgram : decodePort [.cmd 0b1001, .data 0x41 true] = .ok (.rxDgram [0x41], []) := by rfl

theorem test_read_rxAbort : decodePort [.cmd 0b1010] = .ok (.rxAbort, []) := by rfl

theorem test_read_brightness : decodePort [.cmd 0b1011, .word 0xD5] = .ok (.brightness 0xD5, []) := by rfl

theorem test_read_leftTally : decodePort [.cmd 0b1100, .word 0xD5] = .ok (.leftTally 0xD5, []) := by rfl

theorem test_read_textTally : decodePort [.cmd 0b1101, .word 0xD5] = .ok (.textTally 0xD5, []) := by rfl

theorem test_read_rightTally : decodePort [.cmd 0b1110, .word 0xD5] = .ok (.rightTally 0xD5, []) := by rfl

theorem test_read_isControlData :
    decodePort [.cmd 0b1111, .word 0x8000] = .ok (.isControlData 0x8000, []) := by rfl

/-- R71, R86: `pppppppp PPPPPPPP vvvvvvvv ffffffff ssssssss SSSSSSSS`, low byte first. -/
theorem test_read_packetFixed :
    decodePort ([0x0F, 0x00, 0x7F, 0x01, 0x34, 0x12].map (.image .packetFixed))
      = .ok (.packetFixed 0x000F 0x7F 0x01 0x1234, []) := by rfl

/-- R72, R86: `iiiiiiii IIIIIIII cccccccc CCCCCCCC tttttttt TTTTTTTT`, low byte first. -/
theorem test_read_messageFixed :
    decodePort ([0xFE, 0x02, 0xD5, 0x80, 0x00, 0x08].map (.image .messageFixed))
      = .ok (.messageFixed 0x02FE 0x80D5 0x0800, []) := by rfl

/-- R75: "on the wire its low byte comes first". -/
theorem test_read_controlWord :
    decodePort [.image .controlWord 0xD5, .image .controlWord 0x80] = .ok (.controlWord 0x80D5, []) := by rfl

theorem test_read_flags : decodePort [.image .flags 0b10000001] = .ok (.flags 0x81, []) := by rfl

theorem test_read_sof : decodePort [.wire 0b11111110, .wire 0b00000010] = .ok (.sof, []) := by rfl

theorem test_read_escFe :
    decodePort [.wire 0b11111110, .wire 0b11111110, .wire 0x02] = .ok (.escFe, [.wire 0x02]) := by rfl

theorem test_read_lit : decodePort [.wire 0x02] = .ok (.lit 0x02, []) := by rfl

theorem test_read_loneFe :
    decodePort [.wire 0b11111110, .wire 0x41] = .ok (.loneFe, [.wire 0x41]) := by rfl

/-- R78: an `FE` with nothing behind it is no token yet. -/
theorem test_read_pendingFe : decodePort [.wire 0xFE] = .error .pendingFe := by rfl

/-- The wrong kind of operand is rejected by name. -/
theorem test_read_malformed : decodePort [.cmd 0x2, .word 0x0000] = .error .malformed := by rfl

/-- The table's numbers: SOF's pattern `0xFE02` is written first byte first. -/
theorem test_table_word_sof : decodeTableWord 16 0xFE02 = some .sof := by rfl

theorem test_table_word_loneFe : decodeTableWord 8 0xFE = some .loneFe := by rfl

/-! ## The packet codec -/

/-- S1. -/
theorem test_encode_cam : resultOf (exec (.encode cam) State.reset) = some (.bytes camImage) := by decide

/-- E5: a text of 2049 bytes. -/
theorem test_encode_text_too_long :
    resultOf (exec (.encode (spaces 2049)) State.reset) = some (.error .textTooLong) := by
  have h : textsFit (spaces 2049) = false := spaces_textsFit 2049
  simp only [exec, execEncode, h]
  rfl

/-- S1. -/
theorem test_decode_cam : resultOf (exec (.decode camImage) State.reset) = some (.packet cam) := by decide

/-- D12: the second message has bit 15 set, and the whole packet is rejected. -/
theorem test_decode_control_data :
    resultOf (exec (.decode [0x10, 0, 0, 0, 0, 0, 0x01, 0, 0, 0, 0, 0, 0x02, 0, 0, 0x80, 0, 0]) State.reset)
      = some (.error .unsupportedControlData) := by decide

/-- D2, D4, D6b, D7b, D8a, D8b, D10, D13: which test fires first. -/
theorem test_decoder_order :
    [[0x03, 0, 0, 0, 0], [0x05, 0, 0, 0, 0, 0],
      [0x10, 0, 0, 0, 0, 0, 0x01, 0, 0xD5, 0, 0x05, 0, 0x43, 0x41, 0x4D, 0x20, 0x31, 0],
      [0x07, 0, 0, 0, 0, 0, 0xAA, 0xBB, 0xFF], [0x08, 0, 0, 0, 0, 0, 0x01, 0, 0, 0],
      [0x08, 0, 0, 0, 0, 0, 0x01, 0, 0, 0x80], [0x0A, 0, 0, 0, 0, 0, 0x01, 0, 0, 0, 0x01, 0],
      [0x10, 0, 0, 0, 0, 0, 0x01, 0, 0, 0, 0xFF, 0, 0x02, 0, 0, 0x80, 0, 0]].map decodeImageBytes
      = [.error .tooShort, .error .lengthMismatch, .error .truncated, .error .truncated, .error .truncated,
        .error .unsupportedControlData, .error .truncated, .error .truncated] := by decide

/-- R83. -/
theorem test_reserved_refused : refusalOf (exec .reserved0 State.reset) = some .reservedCommand := by decide

/-! ## The accessors: `0x001B` and `0x00E4` give each field a different value (95, part 4) -/

theorem test_brightness :
    [0x00E4, 0x0040, 0x7F00].map (fun cw => resultOf (exec (.brightness cw) State.reset))
      = [some (.field2 3), some (.field2 1), some (.field2 0)] := by decide

theorem test_leftTally :
    [0x001B, 0x00E4].map (fun cw => resultOf (exec (.leftTally cw) State.reset))
      = [some (.field2 1), some (.field2 2)] := by decide

theorem test_textTally :
    [0x001B, 0x00E4].map (fun cw => resultOf (exec (.textTally cw) State.reset))
      = [some (.field2 2), some (.field2 1)] := by decide

theorem test_rightTally :
    [0x001B, 0x00E4].map (fun cw => resultOf (exec (.rightTally cw) State.reset))
      = [some (.field2 3), some (.field2 0)] := by decide

theorem test_isControlData :
    [0x7F00, 0xFF3F].map (fun cw => resultOf (exec (.isControlData cw) State.reset))
      = [some (.field1 0), some (.field1 1)] := by decide

/-! ## The frame transport -/

/-- F5. -/
theorem test_frame :
    resultOf (exec (.frame [0xFE, 0xFE, 0x02, 0x02]) State.reset)
      = some (.bytes [0xFE, 0x02, 0xFE, 0xFE, 0xFE, 0xFE, 0x02, 0x02]) := by decide

/-- F7: the escape-aware scan does not cut at the payload's own `FE 02`. -/
theorem test_deframe_stuffed_marker :
    resultOf (exec (.deframe [0xFE, 0x02, 0xFE, 0xFE, 0x02] true) State.reset)
      = some (.deframed ⟨[0xFE, 0x02], [], true⟩) := by decide

/-- F12, F11b, F20, F14b, F10: bytes before the marker; odd runs; half a marker; a lone `FE` at the end. -/
theorem test_deframe_vectors :
    [deframeBytes [0x00, 0xFE, 0xFE, 0x02, 0x41, 0xFE, 0x02] false,
      deframeBytes [0xFE, 0x02, 0xFE, 0xFE, 0xFE, 0x02, 0x43] false,
      deframeBytes [0xFE, 0x02, 0xFE, 0xFE, 0xFE, 0xFE, 0xFE, 0x02] false,
      deframeBytes [0xFE] true, deframeBytes [0xFE, 0x02, 0x41, 0xFE] true]
      = [⟨[0x41], [0xFE, 0x02], true⟩, ⟨[0xFE], [0xFE, 0x02, 0x43], true⟩,
        ⟨[0xFE, 0xFE], [0xFE, 0x02], true⟩, ⟨[], [0xFE], false⟩, ⟨[0x41, 0xFE], [], true⟩] := by decide

/-- 95, part 5.2. -/
theorem test_boundary_vectors :
    [boundary [0xFE, 0x02, 0xFE, 0xFE, 0x02, 0xFE, 0x02] 2, boundary [0xFE, 0x02, 0x41, 0xFE] 2,
      boundary [0xFE, 0x02, 0x41] 2, boundary [0xFE, 0x02, 0xFE, 0x41, 0xFE, 0x02] 2, boundary [0xFE, 0x02] 2]
      = [.marker 5, .pending 3, .atEnd 3, .marker 4, .atEnd 2] := by decide

/-- 95, part 5.2. -/
theorem test_firstMarker_vectors :
    [firstMarker [0x00, 0xFE, 0xFE, 0x02, 0x41], firstMarker [0xFE, 0x03, 0xFE, 0x02], firstMarker [0x02, 0xFE]]
      = [some 2, some 2, none] := by decide

/-- 95, part 5.5: the byte-serial form on one stream. -/
theorem test_serial_vector :
    streamPayloads [0x00, 0xFE, 0xFE, 0x02, 0x41, 0xFE, 0xFE, 0x02, 0xFE, 0x02, 0x42, 0xFE, 0x07, 0xFE]
      = [[0x41, 0xFE, 0x02], [0x42, 0xFE, 0x07, 0xFE]] := by decide

/-! ## The stream engine -/

/-- P1, step 2. -/
theorem test_txSend_stream :
    (nextOf (exec (.txSend camImage) State.reset)).map State.txout
      = some [0xFE :: 0x02 :: camImage] := by decide

/-- P4, step 1. -/
theorem test_txSend_datagram :
    (nextOf (exec (.txSend [0xFE, 0x00]) datagram)).map State.txout = some [[0xFE, 0x00]] := by decide

/-- P2, step 7: the last `FE` is pending. -/
theorem test_rxPush :
    (nextOf (exec (.rxPush [0x02, 0x0B, 0x00, 0x00, 0x00, 0xFE]) (streamWith [0xFE] false))).map
        (fun t => (t.rxbuf, t.serial))
      = some ([0xFE, 0x02, 0x0B, 0x00, 0x00, 0x00, 0xFE], ⟨.body1, [0x0B, 0x00, 0x00, 0x00]⟩) := by decide

/-- P4, step 3; P5, step 10; P6, step 2: the three refusals. -/
theorem test_rxPush_refused :
    [refusalOf (exec (.rxPush [0x41]) datagram), refusalOf (exec (.rxPush [0x41]) (streamWith [] true)),
      refusalOf (exec (.rxPush [5, 6, 7])
        { streamWith [0xFE, 0x02, 1, 2, 3, 4] false with rxbufCap := some 8 })]
      = [some .wrongTransportKind, some .streamEnded, some .bufferFull] := by decide

/-- P5, step 4: bytes before the marker are dropped, the lone `FE` is literal. -/
theorem test_rxDrain_found :
    (nextOf (exec .rxDrain (streamWith [0x41, 0xFE, 0x00, 0xFE, 0x02, 0x41, 0xFE, 0x42, 0xFE, 0x02] false))).map
        (fun t => (t.rxbuf, t.rxout, t.response))
      = some ([0xFE, 0x02], [⟨[0x41, 0xFE, 0x42], .error .tooShort⟩], some (.found true)) := by decide

/-- P5, steps 10 to 12: the push is refused, the drains run. -/
theorem test_rxFeed_refused_push :
    (nextOf (rxFeed [0x41] (streamWith [0x00, 0xFE, 0x02, 0x04, 0x00, 0x09, 0x00, 0x2A, 0x00] true))).map
        (fun t => (t.rxbuf, t.rxEos, t.rxout))
      = some ([], false, [⟨[0x04, 0x00, 0x09, 0x00, 0x2A, 0x00], .ok ⟨9, 0, 42, []⟩⟩]) := by decide

/-- P5, step 15: a buffer with no marker is discarded at the end of the stream. -/
theorem test_rxDrain_exhausted :
    nextOf (exec .rxDrain (streamWith [0x41] true))
      = some { streamWith [] false with response := some (.found false) } := by decide

/-- R163. -/
theorem test_rxEos :
    (nextOf (exec .rxEos (streamWith [0xFE, 0x02, 0x43] false))).map (fun t => (t.rxEos, t.rxbuf))
      = some (true, [0xFE, 0x02, 0x43]) := by decide

/-- R164, and P4, step 9. -/
theorem test_rxDgram :
    (nextOf (exec (.rxDgram [0x04, 0, 0, 0, 0x2A, 0]) datagram)).map State.rxout
      = some [⟨[0x04, 0, 0, 0, 0x2A, 0], .ok ⟨0, 0, 42, []⟩⟩] := by decide

theorem test_rxDgram_refused :
    refusalOf (exec (.rxDgram []) (streamWith [] false)) = some .wrongTransportKind := by decide

/-- R165. -/
theorem test_rxAbort :
    nextOf (exec .rxAbort (streamWith [0xFE, 0x02, 0x0F, 0x00] true))
      = some { streamWith [] false with response := some .done } := by decide

/-! ## The wire layouts and the tokens -/

/-- S1: PBC 15 of a 17-byte image. -/
theorem test_packetFixed :
    resultOf (exec (.packetFixed 0x000F 0 0 0) State.reset)
      = some (.packetFields 0x000F 0 0 0 17) := by decide

/-- S1: a message of 11 bytes with its text. -/
theorem test_messageFixed :
    resultOf (exec (.messageFixed 0x0001 0x00D5 0x0005) State.reset)
      = some (.messageFields 0x0001 0x00D5 0x0005 11) := by decide

/-- R75: `duuuuuuubbllttrr` of `1 0000001 00 01 10 11`. -/
theorem test_controlWord :
    resultOf (exec (.controlWord 0x811B) State.reset)
      = some (.controlFields 1 1 0 1 2 3) := by decide

/-- R76: `uuuuuuue` of `1000000 1`. -/
theorem test_flags :
    resultOf (exec (.flags 0x81) State.reset) = some (.flagsFields 0x40 1) := by decide

theorem test_sof :
    (nextOf (exec .sof (streamWith [0xFE, 0x02, 0x41] false))).map (fun t => (t.rxbuf, t.serial))
      = some ([0xFE, 0x02, 0x41, 0xFE, 0x02], ⟨.body0, []⟩) := by decide

theorem test_escFe :
    (nextOf (exec .escFe (streamWith [0xFE, 0x02, 0x41] false))).map State.serial
      = some ⟨.body0, [0x41, 0xFE]⟩ := by decide

theorem test_lit :
    (nextOf (exec (.lit 0x02) (streamWith [0xFE, 0x02, 0x41] false))).map State.serial
      = some ⟨.body0, [0x41, 0x02]⟩ := by decide

theorem test_loneFe :
    (nextOf (exec .loneFe (streamWith [0xFE, 0x02, 0x41] false))).map (fun t => (t.rxbuf, t.serial.payload))
      = some ([0xFE, 0x02, 0x41, 0xFE], [0x41, 0xFE]) := by decide

/-! ## The step, reset and the reads of the host -/

/-- The step takes the instruction's transfers and no others. -/
theorem test_step_takes_one_command :
    (nextOf (step (State.reset.withPort [.cmd 0x6, .data 0x41 true, .cmd 0x7]))).map
        (fun t => (t.rxbuf, t.port)) = some ([0x41], [.cmd 0x7]) := by decide

/-- R220: `rst` in the middle of an operand abandons the operation. -/
theorem test_reset_abandons :
    nextOf (step ((streamWith [0x41] true).withPort [.cmd 0x2, .data 0x04 false, .rst .stream .datagram, .cmd 0x7]))
      = some (State.resetWith .stream .datagram none [.cmd 0x7]) := by decide

/-- R220: `rst` behind a refused command, and behind transfers that are no command's. -/
theorem test_reset_behind_a_refused_command :
    nextOf (step ((streamWith [0x41] true).withPort [.cmd 0x0, .rst .datagram .stream, .cmd 0x7]))
        = some (State.resetWith .datagram .stream none [.cmd 0x7]) ∧
      nextOf (step ((streamWith [0x41] true).withPort [.word 0, .cmd 0x7, .rst .stream .datagram]))
        = some (State.resetWith .stream .datagram none []) := by decide

theorem test_withFetchWord_runs :
    (nextOf (step (State.reset.withFetchWord 8 0x8))).map State.rxEos = some true := by decide

/-- R26, R27. -/
theorem test_cfg_and_rxlen :
    ((State.resetWith .datagram .stream none []).cfgRead, (State.resetWith .stream .datagram none []).cfgRead,
      (streamWith [0xFE, 0x02, 0x41] false).rxLen) = (0x01, 0x02, 3) := by decide

/-! ## Witnesses: states and operands that meet the hypotheses of the statements of Obligations.lean -/

theorem witness_PortReadsBackEveryInstruction :
    Instr.loneFe.wellFormed = true ∧ followerAllowed .loneFe [.wire 0x41] = true ∧
      (Instr.encode cam).wellFormed = true ∧ followerAllowed (.encode cam) [] = true := by decide

theorem witness_PortReadingIsCanonical :
    decodePort [.cmd 0x3, .data 0x41 false, .data 0xFE true, .cmd 0x7]
      = .ok (.frame [0x41, 0xFE], [.cmd 0x7]) := by rfl

theorem witness_StepRunsTheInstructionOnThePort :
    decodePort (State.reset.withPort [.cmd 0x7, .cmd 0x0]).port = .ok (.rxDrain, [.cmd 0x0]) ∧
      decodePort (State.reset.withPort [.cmd 0x0]).port = .ok (.reserved0, []) ∧
      decodePort (State.reset.withPort [.cmd 0x0, .rst .stream .stream]).port
        = .ok (.reserved0, [.rst .stream .stream]) :=
  ⟨rfl, rfl, rfl⟩

theorem witness_StepWaitsForAWholeTransfer :
    State.reset.port = [] ∧
      decodePort (State.reset.withPort [.cmd 0x2, .data 0x04 false]).port = .error .incomplete ∧
      decodePort (State.reset.withPort [.wire 0xFE]).port = .error .pendingFe :=
  ⟨rfl, rfl, rfl⟩

theorem witness_InstructionsLeaveThePorts : ∃ t, exec .rxDrain State.reset = .next t := ⟨_, rfl⟩

theorem witness_ResetRestoresEveryField :
    firstReset [.cmd 0x2, .data 0x04 false] = none ∧
      decodePort [.cmd 0x2, .data 0x04 false] = .error .incomplete ∧
      ((streamWith [0x41] true).withPort
        ([.cmd 0x2, .data 0x04 false] ++ .rst .stream .datagram :: [])).port
        = [.cmd 0x2, .data 0x04 false] ++ .rst .stream .datagram :: [] :=
  ⟨rfl, rfl, rfl⟩

theorem witness_ResetRestoresEveryField_alone :
    firstReset [] = none ∧ decodePort [] = .error .incomplete ∧
      firstReset [.wire 0xFE] = none ∧ decodePort [.wire 0xFE] = .error .pendingFe :=
  ⟨rfl, rfl, rfl, rfl⟩

/-- A push after the end of the stream, and transfers that are no command's. -/
theorem witness_ResetRestoresEveryField_refused :
    firstReset [.cmd 0x6, .data 0x41 true] = none ∧
      decodePort [.cmd 0x6, .data 0x41 true] = .ok (.rxPush [0x41], []) ∧
      exec (.rxPush [0x41]) (streamWith [] true) = .refused .streamEnded ∧
      firstReset [.word 0, .cmd 0x7] = none ∧ decodePort [.word 0, .cmd 0x7] = .error .malformed :=
  ⟨rfl, rfl, rfl, rfl, rfl⟩

theorem witness_ConfigurationChangesOnlyAtReset :
    firstReset (State.reset.withPort [.cmd 0x7]).port = none ∧
      (∃ t, step (State.reset.withPort [.cmd 0x7]) = .next t) ∧
      (State.reset.withPort [.rst .datagram .stream]).port = .rst .datagram .stream :: [] :=
  ⟨rfl, ⟨_, rfl⟩, rfl⟩

theorem witness_InvariantIsKeptByEveryStep :
    ((streamWith [0xFE, 0x02, 0x41, 0xFE, 0x02] false).withPort [.cmd 0x7]).Inv ∧
      ∃ t, step ((streamWith [0xFE, 0x02, 0x41, 0xFE, 0x02] false).withPort [.cmd 0x7]) = .next t :=
  ⟨by decide, ⟨_, rfl⟩⟩

theorem witness_EncodeAnswersTheImageOrAnError_text :
    (∃ m ∈ (spaces 2049).messages, 2048 < m.text.length) ∧
      ∀ m ∈ (spaces 2048).messages, m.text.length ≤ 2048 :=
  ⟨(spaces_over _ _).2 (by decide), (spaces_within _ _).2 (by decide)⟩

/-- 31 messages with the longest text and one with a text of `n` bytes (E6a, E6b). -/
def full (n : Nat) : Packet := ⟨0, 0, 0, ⟨0, 0, List.replicate n 0x20⟩ :: List.replicate 31 ⟨0, 0, List.replicate 2048 0x20⟩⟩

theorem replicate_text (k n : Nat) (m : DisplayMessage)
    (h : m ∈ List.replicate k (⟨0, 0, List.replicate n 0x20⟩ : DisplayMessage)) : m.text.length = n := by
  rw [(List.mem_replicate.1 h).2]
  exact List.length_replicate

theorem replicate_sum (k n : Nat) :
    ((List.replicate k (⟨0, 0, List.replicate n 0x20⟩ : DisplayMessage)).map
      fun m => 6 + m.text.length).sum = k * (6 + n) := by
  simp

theorem full_fits (n : Nat) (h : n ≤ 2048) : ∀ m ∈ (full n).messages, m.text.length ≤ 2048 := by
  intro m hm
  rcases List.mem_cons.1 hm with rfl | hm
  · exact List.length_replicate ▸ h
  · exact (replicate_text 31 2048 m hm).le

theorem full_sum (n : Nat) : 4 + ((full n).messages.map fun m => 6 + m.text.length).sum = 63684 + n := by
  rw [full, List.map_cons, List.sum_cons, replicate_sum, List.length_replicate]
  omega

theorem body_length (p : Packet) (body : Bytes)
    (h : body = [p.version, p.flags] ++ le16 p.screen ++ p.messages.flatMap (fun m =>
      le16 m.index ++ le16 m.controlWord ++ le16 (BitVec.ofNat 16 m.text.length) ++ m.text)) :
    body.length = 4 + (p.messages.map fun m => 6 + m.text.length).sum := by
  subst h
  simp only [List.length_append, List.length_flatMap, le16]
  rfl

/-- E6a, E6b: the largest body that fits, and one byte more. -/
theorem witness_EncodeAnswersTheImageOrAnError_body :
    (∀ m ∈ (full 1852).messages, m.text.length ≤ 2048) ∧
      (∃ body : Bytes, body = [(full 1852).version, (full 1852).flags] ++ le16 (full 1852).screen ++
        (full 1852).messages.flatMap (fun m =>
          le16 m.index ++ le16 m.controlWord ++ le16 (BitVec.ofNat 16 m.text.length) ++ m.text) ∧
        65535 < body.length) ∧
      (∀ m ∈ (full 1851).messages, m.text.length ≤ 2048) ∧
      (∃ body : Bytes, body = [(full 1851).version, (full 1851).flags] ++ le16 (full 1851).screen ++
        (full 1851).messages.flatMap (fun m =>
          le16 m.index ++ le16 m.controlWord ++ le16 (BitVec.ofNat 16 m.text.length) ++ m.text) ∧
        body.length ≤ 65535) :=
  ⟨full_fits _ (by decide), ⟨_, rfl, by rw [body_length (full 1852) _ rfl, full_sum]; decide⟩,
    full_fits _ (by decide),
    ⟨_, rfl, by rw [body_length (full 1851) _ rfl, full_sum]⟩⟩

theorem witness_PbcCountsWhatFollowsIt :
    ∃ t, exec (.encode cam) State.reset = .next t ∧ t.response = some (.bytes camImage) :=
  ⟨_, rfl, by decide⟩

theorem witness_AcceptedPacketsHaveAtMost10921Messages :
    ∃ t, exec (.encode cam) State.reset = .next t ∧ t.response = some (.bytes camImage) :=
  ⟨_, rfl, by decide⟩

theorem witness_DecoderTestsRunInOrder_good :
    (∀ m ∈ cam.messages, m.controlWord.toNat < 32768 ∧ m.text.length ≤ 65535) ∧
      camImage = le16 0x000F ++ [0, 0] ++ le16 0 ++ messageBytes cam.messages ++ [] ∧
      (0x000F : Half).toNat = camImage.length - 2 := by decide

/-- The image of `cam` with a tail behind its message, under the PBC that counts it. -/
def camWith (r : Bytes) : Bytes :=
  le16 (BitVec.ofNat 16 (15 + r.length)) ++ [0, 0] ++ le16 0 ++ messageBytes cam.messages ++ r

/-- Tails of 1, 3, 4, 5 and 6 bytes, bit 15 set and clear. -/
theorem witness_DecoderTestsRunInOrder_tails :
    ([[0xAA], [0xAA, 0xBB, 0xFF], [0x01, 0, 0, 0x80], [0x01, 0, 0xFF, 0x7F], [0x01, 0, 0xFF, 0x7F, 0x05],
        [0x01, 0, 0, 0x80, 0x05], [0x01, 0, 0, 0, 0x01, 0]].all fun r =>
      (BitVec.ofNat 16 (15 + r.length)).toNat = (camWith r).length - 2) = true ∧
      32768 ≤ (rd16 [0x01, 0, 0, 0x80] 2).toNat ∧ (rd16 [0x01, 0, 0xFF, 0x7F] 2).toNat < 32768 ∧
      (rd16 [0x01, 0, 0xFF, 0x7F, 0x05] 2).toNat < 32768 ∧ 32768 ≤ (rd16 [0x01, 0, 0, 0x80, 0x05] 2).toNat ∧
      [0x01, 0, 0, 0, 0x01, 0].length < 6 + (rd16 [0x01, 0, 0, 0, 0x01, 0] 4).toNat := by decide

theorem witness_DecoderTestsRunInOrder_short :
    [0x03, 0, 0, 0, (0 : Byte)].length < 6 ∧ 6 ≤ [0x05, 0, 0, 0, 0, (0 : Byte)].length ∧
      (rd16 [0x05, 0, 0, 0, 0, 0] 0).toNat ≠ [0x05, 0, 0, 0, 0, (0 : Byte)].length - 2 := by decide

theorem witness_OverlongInputIsALengthMismatch : 65537 < (List.replicate 65538 (0 : Byte)).length :=
  List.length_replicate.symm ▸ (by decide)

theorem witness_PacketRoundTrip :
    (∀ m ∈ cam.messages, m.text.length ≤ 2048) ∧
      4 + (cam.messages.map fun m => 6 + m.text.length).sum ≤ 65535 ∧
      (∀ m ∈ cam.messages, m.controlWord.toNat < 32768) ∧
      (∃ m ∈ [(⟨0, 0x8000, []⟩ : DisplayMessage)], 32768 ≤ m.controlWord.toNat) := by decide

theorem witness_PacketRoundTrip_overlong :
    (∀ m ∈ (full 1852).messages, m.text.length ≤ 2048) ∧
      65535 < 4 + ((full 1852).messages.map fun m => 6 + m.text.length).sum :=
  ⟨full_fits _ (by decide), (full_sum 1852).symm ▸ (by decide)⟩

theorem witness_CorruptedLengthIsRejected :
    exec (.decode camImage) State.reset = .next { State.reset with response := some (.packet cam) } ∧
      (0x000E : Half).toNat ≠ camImage.length - 2 :=
  ⟨rfl, by decide⟩

theorem witness_ControlDataIsRejected :
    exec (.decode camImage) State.reset = .next { State.reset with response := some (.packet cam) } ∧
      0 < cam.messages.length :=
  ⟨rfl, by decide⟩

/-- D17: an image whose one text has 2049 bytes. -/
def longImage : Bytes :=
  [0x0B, 0x08, 0, 0, 0, 0, 0x07, 0, 0x01, 0, 0x01, 0x08] ++ List.replicate 2049 0x71

def longPacket : Packet := ⟨0, 0, 0, [⟨7, 1, List.replicate 2049 0x71⟩]⟩

theorem longMessage_read (n : Nat) (text : Bytes) (h : text.length = 2049) :
    decodeMessages (n + 2) (0x07 :: 0 :: 0x01 :: 0 :: 0x01 :: 0x08 :: text) [] = .ok [⟨7, 1, text⟩] := by
  have hc : rd16 (0x07 :: 0 :: 0x01 :: 0 :: 0x01 :: 0x08 :: text) 2 = 0x0001 := by
    simp [rd16, rd8]
  have hb : controlDataBit 0x0001 = 0 := by decide
  have ht : (rd16 (0x07 :: 0 :: 0x01 :: 0 :: 0x01 :: 0x08 :: text) 4).toNat = 2049 := by
    simp [rd16, rd8]
  have hl : (0x07 :: 0 :: 0x01 :: 0 :: 0x01 :: 0x08 :: text : Bytes).length = 2055 := by simp [h]
  have hd : (0x07 :: 0 :: 0x01 :: 0 :: 0x01 :: 0x08 :: text : Bytes).drop 2055 = [] :=
    List.drop_eq_nil_of_le hl.le
  have htext : text.take 2049 = text := List.take_of_length_le h.le
  rw [decodeMessages]
  simp only [hc, hb, ht, hl, hd, Config.msgHdr, Config.msgFixed, decodeMessages]
  simp [htext, rd16, rd8]

theorem longImage_decodes : decodeImageBytes longImage = .ok longPacket := by
  have hl : longImage.length = 2061 := by
    rw [longImage, List.length_append, List.length_replicate]
    rfl
  have hp : (rd16 longImage 0).toNat = 2059 := rfl
  have hm := longMessage_read 2059 (List.replicate 2049 0x71) List.length_replicate
  rw [decodeImageBytes, hl, hp]
  simp only [Config.minPacket]
  rw [show longImage.drop Config.pktFixed
    = 0x07 :: 0 :: 0x01 :: 0 :: 0x01 :: 0x08 :: List.replicate 2049 0x71 from rfl, hm]
  rfl

theorem witness_ConverseRoundTrip :
    exec (.decode camImage) State.reset = .next { State.reset with response := some (.packet cam) } ∧
      (∀ m ∈ cam.messages, m.text.length ≤ 2048) :=
  ⟨rfl, by decide⟩

theorem witness_ConverseRoundTrip_long :
    exec (.decode longImage) State.reset
        = .next { State.reset with response := some (.packet longPacket) } ∧
      (∃ m ∈ longPacket.messages, 2048 < m.text.length) := by
  refine ⟨?_, ⟨7, 1, List.replicate 2049 0x71⟩, List.mem_singleton.2 rfl, List.length_replicate.symm ▸ (by decide)⟩
  rw [exec, execDecode, longImage_decodes]
  rfl

theorem witness_DecodedMessagesAreNeverControlData :
    exec (.decode camImage) State.reset = .next { State.reset with response := some (.packet cam) } ∧
      (⟨1, 0x00D5, [0x43, 0x41, 0x4D, 0x20, 0x31]⟩ : DisplayMessage) ∈ cam.messages :=
  ⟨rfl, by decide⟩

theorem witness_StuffedRunsAreEven :
    stuff [0x41, 0xFE, 0xFE] = [0x41] ++ List.replicate 4 0xFE ++ [] ∧
      [(0x41 : Byte)].getLast? ≠ some 0xFE ∧ ([] : Bytes).head? ≠ some 0xFE := by decide

theorem witness_DeframeWaitsForTheNextMarker :
    exec (.deframe [0xFE, 0x02, 0x41, 0xFE, 0x02] false) State.reset
        = .next { State.reset with response := some (.deframed ⟨[0x41], [0xFE, 0x02], true⟩) } ∧
      exec (.deframe [0xFE, 0x02, 0x41] false) State.reset
        = .next { State.reset with response := some (.deframed ⟨[], [0xFE, 0x02, 0x41], false⟩) } :=
  ⟨rfl, rfl⟩

theorem witness_LeadingBytesAreDroppedWithTheFirstFrame :
    firstMarker ([0x00, 0xFE] ++ [0xFE]) = none ∧
      exec (.deframe (0xFE :: 0x02 :: [0x41]) true) State.reset
        = .next { State.reset with response := some (.deframed ⟨[0x41], [], true⟩) } ∧
      exec (.deframe (0xFE :: 0x02 :: [0x41]) false) State.reset
        = .next { State.reset with response := some (.deframed ⟨[], [0xFE, 0x02, 0x41], false⟩) } :=
  ⟨rfl, rfl, rfl⟩

theorem witness_LoneEscapeIsLiteral : (0x41 : Byte) ≠ 0xFE ∧ (0x41 : Byte) ≠ 0x02 := by decide

theorem witness_EmptyFrameIsDelivered :
    (streamWith [0xFE, 0x02, 0xFE, 0x02] false).rxKind = .stream ∧
      (streamWith [0xFE, 0x02, 0xFE, 0x02] false).rxbuf = 0xFE :: 0x02 :: 0xFE :: 0x02 :: [] ∧
      (streamWith [0xFE, 0x02] true).rxbuf = [0xFE, 0x02] ∧ (streamWith [0xFE, 0x02] true).rxEos = true := by
  decide

theorem witness_ScanStateIsAFunctionOfTheBuffer :
    firstMarker [0x41, 0xFE] = none ∧
      firstMarker [0xFE, 0x02, 0x41, 0xFE] = some 0 ∧ boundary [0xFE, 0x02, 0x41, 0xFE] (0 + 2) = .pending 3 ∧
      boundary [0xFE, 0x02] (0 + 2) = .atEnd 2 ∧ boundary [0xFE, 0x02, 0xFE, 0x02] (0 + 2) = .marker 2 := by
  decide

theorem witness_SerialFormDeliversTheSamePayloads :
    (streamWith [] false).rxKind = .stream ∧ (streamWith [] false).rxbuf = [] ∧
      (streamWith [] false).rxEos = false ∧ (streamWith [] false).rxbufCap = none ∧
      (streamWith [] false).acceptsFeeds [[0xFE], [0x02, 0x41, 0xFE], [0x02]] = true :=
  ⟨rfl, rfl, rfl, rfl, by decide⟩

/-- Two frames cut inside the first marker and inside a stuffed pair. -/
theorem witness_StreamReassembly :
    [[0xFE], [0x02, 0x41, 0xFE], [0xFE, 0xFE, 0x02], [0x42]].flatten
        = [[0x41, 0xFE], [(0x42 : Byte)]].flatMap frameBytes ∧
      (([[0x41, 0xFE], [(0x42 : Byte)]].take 1).flatMap frameBytes ++ [0xFE, 0x02]
        <+: [[0xFE], [0x02, 0x41, 0xFE], [0xFE, 0xFE, 0x02]].flatten) := by decide

theorem witness_TxSendAppendsOneWriteUnit :
    State.reset.txKind = .stream ∧ datagram.txKind = .datagram := by decide

/-- A finite capacity at its boundary: 6 + 2 bytes fit 8, 6 + 3 do not. -/
theorem witness_RxPushAppendsOrIsRefused :
    (State.fits { streamWith [0xFE, 0x02, 1, 2, 3, 4] false with rxbufCap := some 8 } [5, 6]) = true ∧
      8 < [0xFE, 0x02, 1, 2, 3, 4].length + [5, 6, 7].length ∧ datagram.rxKind = .datagram ∧
      (streamWith [] true).rxEos = true := by decide

theorem witness_ChunkBoundariesCarryNoMeaning :
    ∃ u, exec (.rxPush ([0xFE] ++ [0x02])) (streamWith [] false) = .next u := ⟨_, rfl⟩

theorem witness_RxDrainDeliversOneFrame :
    (deframeBytes [0xFE, 0x02, 0x41, 0xFE, 0x02] false).found = true ∧
      (deframeBytes [0xFE, 0x02, 0x41] true).rest = [] ∧ (deframeBytes [0x41] true).found = false ∧
      (deframeBytes [0xFE, 0x02, 0x41] false).found = false ∧
      (streamWith [0x41] true).rxKind = .stream ∧ datagram.rxKind = .datagram := by decide

theorem witness_RxEosSetsTheFlag : State.reset.rxKind = .stream ∧ datagram.rxKind = .datagram := by decide

theorem witness_RxDgramDeliversTheDatagram :
    datagram.rxKind = .datagram ∧ State.reset.rxKind = .stream := by decide

theorem witness_ReservedCommandIsRefused :
    (State.reset.withPort [.cmd 0x0, .cmd 0x7]).port = .cmd 0x0 :: [.cmd 0x7] ∧
      firstReset [.cmd 0x7] = none ∧
      (State.reset.withPort [.cmd 0x0, .rst .datagram .stream]).port = .cmd 0x0 :: [.rst .datagram .stream] ∧
      firstReset [.rst .datagram .stream] = some (.datagram, .stream, []) ∧ (1 : Fin 16) ≠ 0 := by decide

theorem witness_CommandsAreAcceptedExactlyWhenTheyMay :
    isPureCommand (.decode camImage) = true ∧ State.reset.accepts .rxDrain = true ∧
      datagram.accepts .rxDrain = false := by decide

theorem witness_RxFeedDrainsUntilNotFound :
    (streamWith [0xFE, 0x02] false).acceptsBytes [0x41, 0xFE, 0x02] = true ∧
      (∃ t, exec .rxDrain (streamWith [0xFE, 0x02, 0xFE, 0x02] false) = .next t ∧
        t.response = some (.found true)) ∧
      (∃ t, exec (.rxPush [0x41]) (streamWith [] false) = .next t) ∧
      exec (.rxPush [0x41]) (streamWith [] true) = .refused .streamEnded :=
  ⟨rfl, ⟨_, rfl, rfl⟩, ⟨_, rfl⟩, rfl⟩

theorem witness_RxCloseDeliversEveryFrame : (streamWith [0xFE, 0x02, 0x41] false).rxKind = .stream := by decide

theorem witness_SendTransmitsOnlyAnImage : encodeImageBytes cam = .ok camImage := by decide

theorem witness_SendTransmitsOnlyAnImage_error :
    encodeImageBytes (spaces 2049) = .error .textTooLong := by
  have h : textsFit (spaces 2049) = false := spaces_textsFit 2049
  simp only [encodeImageBytes, h]
  rfl

theorem witness_BadFramesDoNotBlockLaterOnes :
    (streamWith (frameBytes [0x41] ++ frameBytes camImage ++ 0xFE :: 0x02 :: []) false).rxbuf
      = frameBytes [0x41] ++ frameBytes camImage ++ 0xFE :: 0x02 :: [] := by decide

theorem witness_LogsOnlyGrowAndAreNeverRead :
    (∃ r, exec .rxDrain datagram = .refused r) ∧
      ∃ t, exec (.txSend [0x41]) State.reset = .next t ∧
        t.txout = State.reset.txout ++ [[0xFE, 0x02, 0x41]] ∧ t.rxout = State.reset.rxout ++ [] :=
  ⟨⟨_, rfl⟩, ⟨_, rfl, rfl, rfl⟩⟩

theorem witness_TxAndRxCommandsCommute :
    isTxCommand (.txSend [0x41]) = true ∧ isRxCommand .rxDrain = true ∧
      ∃ t u, exec (.txSend [0x41]) State.reset = .next t ∧ exec .rxDrain t = .next u :=
  ⟨rfl, rfl, ⟨_, _, rfl, rfl⟩⟩

theorem witness_StatusCodesAreTheTable : ∃ t, exec (.decode []) State.reset = .next t := ⟨_, rfl⟩

theorem witness_CommandsRunInIssueOrder :
    datagram.accepts .rxEos = false ∧ ∃ t, exec .rxEos State.reset = .next t :=
  ⟨rfl, ⟨_, rfl⟩⟩

theorem witness_TokensReachTheReceiveBuffer :
    (streamWith [0xFE, 0x02] false).rxKind = .stream ∧ (streamWith [0xFE, 0x02] false).rxEos = false ∧
      (streamWith [0xFE, 0x02] false).rxbufCap = none ∧ datagram.rxKind = .datagram ∧
      (streamWith [0xFE, 0x02] true).rxEos = true ∧
      3 < (streamWith [0xFE, 0x02] false).rxbuf.length + Config.marker.length := by decide

theorem witness_TokensBuildThePayload :
    (streamWith [0xFE, 0x02, 0x41] false).serial = ⟨.body0, [0x41]⟩ ∧
      ∃ t u, exec .loneFe (streamWith [0xFE, 0x02, 0x41] false) = .next t ∧ exec (.lit 0x42) t = .next u :=
  ⟨rfl, ⟨_, _, rfl, rfl⟩⟩

theorem witness_StartMarkerClosesTheFrameInProgress :
    (streamWith [0x00, 0xFE, 0x02, 0x41] false).Inv ∧
      (deframeBytes (streamWith [0x00, 0xFE, 0x02, 0x41] false).rxbuf false).found = false ∧
      (streamWith [0x00, 0xFE, 0x02, 0x41] false).serial.scan = .body0 ∧
      ∃ t, exec .sof (streamWith [0x00, 0xFE, 0x02, 0x41] false) = .next t :=
  ⟨by decide, by decide, by decide, ⟨_, rfl⟩⟩

/-- A push refused after the end of the stream, for want of room, and in datagram mode. -/
theorem witness_FeedWithARefusedPushStillDrains :
    (streamWith [0xFE, 0x02, 0x41] true).acceptsBytes [] = false ∧
      (streamWith [0xFE, 0x02, 0x41] true).rxKind = .stream ∧
      ({ streamWith [0xFE, 0x02, 0xFE, 0x02] false with rxbufCap := some 4 }).acceptsBytes [0x41] = false ∧
      (streamWith [0xFE, 0x02, 0xFE, 0x02] false).rxEos = false ∧
      datagram.acceptsBytes [] = false ∧ datagram.rxKind = .datagram := by decide

end Sys2Proof.Tests
end

section
/-! SUPPORT. The step for each answer of the ports' reading, and the refusal of every instruction that is not
accepted; with them the statements on the step's scope (R6, R10, R208) and on issue order (R61). -/

namespace Sys2Proof.Machine

/-! ## The step, by what the ports are read as -/

/-- R6, R32: with an instruction on the ports, a step is its execution, with its transfers taken on success. -/
theorem step_of_decodePort_ok (s : State) (i : Instr) (rest : List Beat)
    (h : decodePort s.port = .ok (i, rest)) : step s = s.acceptTransfers rest (exec i s) := by
  simp [step, h]

/-- R208: the block waits for the rest of an operand. -/
theorem step_of_decodePort_incomplete (s : State) (h : decodePort s.port = .error .incomplete) :
    step s = .next s := by
  simp [step, h]

/-- R78, R208: the block waits for the byte that decides the token. -/
theorem step_of_decodePort_pendingFe (s : State) (h : decodePort s.port = .error .pendingFe) :
    step s = .next s := by
  simp [step, h]

/-- Empty ports are the beginning of any command. -/
@[simp] theorem decodePort_nil : decodePort [] = .error .incomplete := rfl

/-! ## Refusal of what is not accepted -/

/-- R161: bytes that are not accepted are refused. -/
theorem receiveBytes_refused (c : Bytes) (s : State) (h : s.acceptsBytes c = false) :
    ∃ r, receiveBytes c s = .refused r := by
  cases hr : receiveBytes c s with
  | next t =>
    have hacc : s.acceptsBytes c = true := (receiveBytes_next c s t hr).1
    simp [h] at hacc
  | fault f => cases f
  | refused r => exact ⟨r, rfl⟩

/-- R10, R168: an instruction that is not accepted is refused. What may be refused is the reserved command,
the bytes of the stream, and the receive commands of the other transport kind. -/
theorem exec_refused_of_not_accepts (s : State) (i : Instr) (h : s.accepts i = false) :
    ∃ r, exec i s = .refused r := by
  cases i with
  | reserved0 => exact ⟨_, rfl⟩
  | rxPush c => exact receiveBytes_refused c s h
  | sof => exact receiveBytes_refused Config.marker s h
  | escFe => exact receiveBytes_refused [Config.esc, Config.esc] s h
  | lit x => exact receiveBytes_refused [x] s h
  | loneFe => exact receiveBytes_refused [Config.esc] s h
  | rxDrain =>
    cases hk : s.rxKind with
    | stream => simp [State.accepts, hk] at h
    | datagram => exact ⟨.wrongTransportKind, by simp [exec, execRxDrain, hk]⟩
  | rxEos =>
    cases hk : s.rxKind with
    | stream => simp [State.accepts, hk] at h
    | datagram => exact ⟨.wrongTransportKind, by simp [exec, execRxEos, hk]⟩
  | rxDgram d =>
    cases hk : s.rxKind with
    | stream => exact ⟨.wrongTransportKind, by simp [exec, execRxDgram, hk]⟩
    | datagram => simp [State.accepts, hk] at h
  | encode | decode | frame | deframe | txSend | rxAbort | brightness | leftTally | textTally | rightTally
  | isControlData | packetFixed | messageFixed | controlWord | flags => cases h

/-! ## Sequences of commands -/

/-- R61: a sequence is its first command, then the others. -/
@[simp] theorem State.issueAll_cons (s : State) (i : Instr) (is : List Instr) :
    s.issueAll (i :: is) = (s.issue i).issueAll is := rfl

/-- R61: two sequences joined are the second after the first. -/
theorem State.issueAll_append (s : State) (is js : List Instr) :
    s.issueAll (is ++ js) = (s.issueAll is).issueAll js := List.foldl_append

/-! ## The statements -/

/-- Settles O4: the step is the execution with the transfers taken, and a refusal meets the first `rst`. -/
theorem stepRunsTheInstructionOnThePort : Obligations.StepRunsTheInstructionOnThePort := by
  intro s i rest hd
  have hstep : step s = s.acceptTransfers rest (exec i s) := step_of_decodePort_ok s i rest hd
  constructor
  · intro t ht
    rw [hstep, ht, State.acceptTransfers_next]
    rfl
  · intro r hr
    rw [hr, State.acceptTransfers_refused] at hstep
    constructor
    · intro hnone
      rw [hstep, s.resetOr_none _ hnone]
    · intro tx rx rest' hsome
      rw [hstep, s.resetOr_some _ tx rx rest' hsome]
      rfl

/-- Settles O5: by the two readings of the ports that make the step wait; empty ports are the first. -/
theorem stepWaitsForAWholeTransfer : Obligations.StepWaitsForAWholeTransfer := by
  refine ⟨fun s hs => ?empty, fun s h => ?unfinished⟩
  case empty => exact step_of_decodePort_incomplete s (by rw [hs, decodePort_nil])
  case unfinished => exact h.elim (step_of_decodePort_incomplete s) (step_of_decodePort_pendingFe s)

/-- Settles O52: what is not accepted is refused and so contributes nothing; a sequence is a left fold. -/
theorem commandsRunInIssueOrder : Obligations.CommandsRunInIssueOrder := by
  refine ⟨fun s i h => ?refused, fun s t i is h => ?first, State.issueAll_append⟩
  case refused =>
    obtain ⟨r, hr⟩ := exec_refused_of_not_accepts s i h
    exact s.issue_refused i r hr
  case first => rw [State.issueAll_cons, s.issue_next t i h]

end Sys2Proof.Machine
end

section
/-! SUPPORT. Reading the input ports against writing them (R32, R78, R80): each operand's reader is held to its
writer once, each command code to its operand, and the three encodings to `encodePort`. Last, what `rst` on the
ports does to the reading of what stands before it (R220). -/

namespace Sys2Proof

/-- R208: the two answers on which the block waits for more transfers. -/
def DecodeError.waits : DecodeError → Bool
  | .incomplete | .pendingFe => true
  | .abandoned | .malformed => false

/-- Where a transfer is due, the block waits only for one that is absent. -/
theorem firstReset_of_transferError_waits {bs : List Beat} (h : (transferError bs).waits = true) :
    firstReset bs = none := by
  cases bs with
  | nil => rfl
  | cons x r => cases x <;> cases h

/-- Two stretches without `rst` have none when joined. -/
theorem firstReset_append_none {a b : List Beat} (ha : firstReset a = none) (hb : firstReset b = none) :
    firstReset (a ++ b) = none := by
  rw [Machine.firstReset_append a b ha, hb]

/-! ## Readers and writers of operands -/

/-- A reader of transfers and a writer of them agree: the reader takes back what the writer wrote, whatever
follows; it takes nothing else; and it waits only where no `rst` has cut the transfer off. -/
structure Reads {α : Type} (take : List Beat → Except DecodeError (α × List Beat)) (enc : α → List Beat) :
    Prop where
  readBack : ∀ a r, take (enc a ++ r) = .ok (a, r)
  canonical : ∀ bs a r, take bs = .ok (a, r) → bs = enc a ++ r
  noReset : ∀ a, firstReset (enc a) = none
  waits : ∀ bs e, take bs = .error e → e.waits = true → firstReset bs = none

section
variable {α β : Type} {take : List Beat → Except DecodeError (α × List Beat)} {f : α → β}

/-- What a reader answers under a constructor is what it answers. -/
theorem map_eq_ok {bs r : List Beat} {b : β} (h : ((take bs).map fun p => (f p.1, p.2)) = .ok (b, r)) :
    ∃ a, take bs = .ok (a, r) ∧ b = f a := by
  cases ht : take bs with
  | error e => rw [ht] at h; cases h
  | ok p => rw [ht] at h; cases h; exact ⟨p.1, rfl, rfl⟩

/-- An error under a constructor is the reader's error. -/
theorem map_eq_error {γ δ : Type} {x : Except DecodeError γ} {g : γ → δ} {e : DecodeError}
    (h : x.map g = .error e) : x = .error e := by
  cases x with
  | error e' => cases h; rfl
  | ok p => cases h

end

/-- No operand. -/
def takeNothing (bs : List Beat) : Except DecodeError (Unit × List Beat) := .ok ((), bs)

theorem takeNothing_reads : Reads takeNothing (fun _ => []) where
  readBack _ _ := rfl
  canonical _ _ _ h := by cases h; rfl
  noReset _ := rfl
  waits _ _ h _ := by cases h

theorem takeEos_reads : Reads takeEos (fun e => [.eosBit e]) where
  readBack _ _ := rfl
  canonical bs a r h := by
    unfold takeEos at h
    split at h <;> cases h
    rfl
  noReset _ := rfl
  waits bs e h hw := by
    unfold takeEos at h
    split at h <;> cases h
    exact firstReset_of_transferError_waits hw

theorem takeWord_reads : Reads takeWord (fun cw => [.word cw]) where
  readBack _ _ := rfl
  canonical bs a r h := by
    unfold takeWord at h
    split at h <;> cases h
    rfl
  noReset _ := rfl
  waits bs e h hw := by
    unfold takeWord at h
    split at h <;> cases h
    exact firstReset_of_transferError_waits hw

/-! ### Byte strings -/

theorem encodeString_cons (d : Byte) {b : Bytes} (h : b ≠ []) :
    encodeString (d :: b) = .data d false :: encodeString b := by
  cases b with
  | nil => cases h rfl
  | cons e r => rfl

/-- R32(b): the bytes up to the `last` mark are read back. -/
theorem takeData_encodeString (d : Byte) (b : Bytes) (r : List Beat) :
    takeData (encodeString (d :: b) ++ r) = .ok (d :: b, r) := by
  induction b generalizing d with
  | nil => rfl
  | cons e b ih => simp only [encodeString, List.cons_append, takeData, ih e, Except.map]

/-- R32(b): the bytes up to the `last` mark are at least one, and stand as they are written. -/
theorem takeData_canonical (bs : List Beat) (b : Bytes) (r : List Beat) (h : takeData bs = .ok (b, r)) :
    b ≠ [] ∧ bs = encodeString b ++ r := by
  induction bs using takeData.induct generalizing b with
  | case1 d r' => cases h; exact ⟨by simp, rfl⟩
  | case2 d r' ih =>
    rw [takeData] at h
    cases ht : takeData r' with
    | error e => rw [ht] at h; cases h
    | ok p =>
      rw [ht] at h
      cases h
      obtain ⟨hne, heq⟩ := ih p.1 ht
      exact ⟨by simp, by rw [encodeString_cons d hne, heq]; rfl⟩
  | case3 bs h1 h2 =>
    rw [takeData] at h
    · cases h
    · assumption
    · assumption

theorem takeData_waits (bs : List Beat) (e : DecodeError) (h : takeData bs = .error e)
    (hw : e.waits = true) : firstReset bs = none := by
  induction bs using takeData.induct with
  | case1 d r' => cases h
  | case2 d r' ih => exact ih (map_eq_error (by rwa [takeData] at h))
  | case3 bs h1 h2 =>
    rw [takeData] at h
    · cases h; exact firstReset_of_transferError_waits hw
    · assumption
    · assumption

theorem firstReset_encodeString (b : Bytes) : firstReset (encodeString b) = none := by
  induction b with
  | nil => rfl
  | cons d b ih =>
    cases b with
    | nil => rfl
    | cons e r => exact ih

theorem takeString_reads : Reads takeString encodeString where
  readBack b r := by
    cases b with
    | nil => rfl
    | cons d b =>
      have h := takeData_encodeString d b r
      cases b <;> exact h
  canonical bs b r h := by
    unfold takeString at h
    split at h
    · cases h; rfl
    · exact (takeData_canonical _ b r h).2
  noReset := firstReset_encodeString
  waits bs e h hw := by
    unfold takeString at h
    split at h
    · cases h
    · exact takeData_waits _ e h hw

/-! ### Two operands -/

/-- One operand, then another. -/
def takeBoth {α β : Type} (take₁ : List Beat → Except DecodeError (α × List Beat))
    (take₂ : List Beat → Except DecodeError (β × List Beat)) (bs : List Beat) :
    Except DecodeError ((α × β) × List Beat) :=
  match take₁ bs with
  | .error e => .error e
  | .ok (a, r) => (take₂ r).map fun p => ((a, p.1), p.2)

theorem Reads.both {α β : Type} {take₁ : List Beat → Except DecodeError (α × List Beat)} {enc₁ : α → List Beat}
    {take₂ : List Beat → Except DecodeError (β × List Beat)} {enc₂ : β → List Beat}
    (h₁ : Reads take₁ enc₁) (h₂ : Reads take₂ enc₂) :
    Reads (takeBoth take₁ take₂) (fun p => enc₁ p.1 ++ enc₂ p.2) where
  readBack p r := by
    simp only [takeBoth, List.append_assoc, h₁.readBack, h₂.readBack, Except.map]
  canonical bs p r h := by
    unfold takeBoth at h
    split at h
    · cases h
    · next a r' ha =>
      obtain ⟨b, hb, rfl⟩ := map_eq_ok (f := fun b => (a, b)) h
      rw [h₁.canonical _ _ _ ha, h₂.canonical _ _ _ hb, List.append_assoc]
  noReset p := firstReset_append_none (h₁.noReset p.1) (h₂.noReset p.2)
  waits bs e h hw := by
    unfold takeBoth at h
    split at h
    · next e' he => cases h; exact h₁.waits bs _ he hw
    · next a r' ha =>
      rw [h₁.canonical _ _ _ ha]
      exact firstReset_append_none (h₁.noReset a) (h₂.waits r' e (map_eq_error h) hw)

/-! ### Packets -/

theorem encodeMessages_cons (m : DisplayMessage) {ms : List DisplayMessage} (h : ms ≠ []) :
    encodeMessages (m :: ms)
      = .message m.index m.controlWord false :: (encodeString m.text ++ encodeMessages ms) := by
  cases ms with
  | nil => cases h rfl
  | cons n ms => rfl

/-- Every message takes at least one transfer, so the transfers bound the messages. -/
theorem length_le_encodeMessages (ms : List DisplayMessage) : ms.length ≤ (encodeMessages ms).length := by
  induction ms with
  | nil => simp
  | cons m ms ih =>
    cases ms with
    | nil => simp [encodeMessages]
    | cons n ms =>
      simp only [encodeMessages, List.length_cons, List.length_append] at ih ⊢
      omega

/-- R32(c): the messages up to the `last_message` mark are read back. -/
theorem takeMessages_encodeMessages (n : Nat) (m : DisplayMessage) (ms : List DisplayMessage)
    (r : List Beat) (hn : (m :: ms).length ≤ n) :
    takeMessages n (encodeMessages (m :: ms) ++ r) = .ok (m :: ms, r) := by
  induction ms generalizing n m with
  | nil =>
    obtain ⟨n, rfl⟩ : ∃ k, n = k + 1 := ⟨n - 1, by simp at hn; omega⟩
    simp only [encodeMessages, List.cons_append, takeMessages, takeString_reads.readBack, if_true]
  | cons m' ms ih =>
    obtain ⟨n, rfl⟩ : ∃ k, n = k + 1 := ⟨n - 1, by simp at hn; omega⟩
    have hrest := ih n m' (by simpa using hn)
    simp only [encodeMessages, List.cons_append, List.append_assoc, takeMessages,
      takeString_reads.readBack, hrest, Except.map]
    rfl

/-- R32(c): the messages up to the `last_message` mark are at least one, and stand as they are written. -/
theorem takeMessages_canonical (n : Nat) (bs : List Beat) (ms : List DisplayMessage) (r : List Beat)
    (h : takeMessages n bs = .ok (ms, r)) : ms ≠ [] ∧ bs = encodeMessages ms ++ r := by
  induction n generalizing bs ms with
  | zero => cases h
  | succ n ih =>
    unfold takeMessages at h
    split at h
    · next n' i c last r₁ heq =>
      cases heq
      split at h
      · cases h
      · next t r₂ ht =>
        have hstr := takeString_reads.canonical _ _ _ ht
        cases last with
        | true => cases h; exact ⟨by simp, by simp [hstr, encodeMessages]⟩
        | false =>
          rw [if_neg (by decide)] at h
          obtain ⟨ms', hms, rfl⟩ := map_eq_ok (f := ((⟨i, c, t⟩ : DisplayMessage) :: ·)) h
          obtain ⟨hne, heq⟩ := ih r₂ ms' hms
          exact ⟨by simp, by rw [encodeMessages_cons _ hne, hstr, heq]; simp⟩
    · cases h

theorem takeMessages_waits (n : Nat) (bs : List Beat) (e : DecodeError) (h : takeMessages n bs = .error e)
    (hw : e.waits = true) : firstReset bs = none := by
  induction n generalizing bs with
  | zero => cases h; exact firstReset_of_transferError_waits hw
  | succ n ih =>
    unfold takeMessages at h
    split at h
    · next n' i c last r₁ heq =>
      cases heq
      split at h
      · next e' he => cases h; exact takeString_reads.waits r₁ _ he hw
      · next t r₂ ht =>
        cases last with
        | true => cases h
        | false =>
          rw [if_neg (by decide)] at h
          have hrest : firstReset r₂ = none := ih r₂ (map_eq_error h)
          rw [takeString_reads.canonical _ _ _ ht]
          exact firstReset_append_none (firstReset_encodeString t) hrest
    · cases h; exact firstReset_of_transferError_waits hw

theorem firstReset_encodeMessages (ms : List DisplayMessage) : firstReset (encodeMessages ms) = none := by
  induction ms with
  | nil => rfl
  | cons m ms ih =>
    cases ms with
    | nil => exact firstReset_encodeString m.text
    | cons n ms => exact firstReset_append_none (firstReset_encodeString m.text) ih

theorem takePacket_reads : Reads takePacket encodePacketOperand where
  readBack p r := by
    obtain ⟨v, f, s, ms⟩ := p
    cases ms with
    | nil => rfl
    | cons m ms =>
      have hlen : (m :: ms).length ≤ (encodeMessages (m :: ms) ++ r).length := by
        have := length_le_encodeMessages (m :: ms)
        rw [List.length_append]
        omega
      simp only [encodePacketOperand, List.isEmpty_cons, List.cons_append, takePacket,
        takeMessages_encodeMessages _ m ms r hlen, Except.map]
  canonical bs p r h := by
    unfold takePacket at h
    split at h
    · cases h; rfl
    · next v f s r' =>
      obtain ⟨ms, hms, rfl⟩ := map_eq_ok (f := fun l => (⟨v, f, s, l⟩ : Packet)) h
      obtain ⟨hne, heq⟩ := takeMessages_canonical _ _ _ _ hms
      rw [heq]
      cases ms with
      | nil => cases hne rfl
      | cons m ms => rfl
    · cases h
  noReset p := firstReset_encodeMessages p.messages
  waits bs e h hw := by
    unfold takePacket at h
    split at h
    · cases h
    · next v f s r' => exact takeMessages_waits r'.length r' e (map_eq_error h) hw
    · cases h; exact firstReset_of_transferError_waits hw

/-! ## The command codes -/

/-- R80: one row of the command table: the code, its operand's reader and writer, its instruction. -/
structure CommandForm (code : BitVec 4) {α : Type} (take : List Beat → Except DecodeError (α × List Beat))
    (enc : α → List Beat) (instr : α → Instr) : Prop where
  operand : Reads take enc
  decode : ∀ r, decodeCommand code r = (take r).map fun p => (instr p.1, p.2) := by intros; rfl
  encode : ∀ a, encodePort (instr a) = .cmd code :: enc a := by intros; rfl
  wellFormed : ∀ a, (instr a).wellFormed = true := by intros; rfl
  follower : ∀ a r, followerAllowed (instr a) r = true := by intros; rfl

theorem commandForm_reserved0 : CommandForm 0x0 takeNothing (fun _ => []) (fun _ => .reserved0) :=
  { operand := takeNothing_reads }
theorem commandForm_encode : CommandForm 0x1 takePacket encodePacketOperand .encode :=
  { operand := takePacket_reads }
theorem commandForm_decode : CommandForm 0x2 takeString encodeString .decode :=
  { operand := takeString_reads }
theorem commandForm_frame : CommandForm 0x3 takeString encodeString .frame :=
  { operand := takeString_reads }
theorem commandForm_deframe : CommandForm 0x4 (takeBoth takeString takeEos)
    (fun p => encodeString p.1 ++ [.eosBit p.2]) (fun p => .deframe p.1 p.2) :=
  { operand := takeString_reads.both takeEos_reads
    decode := fun r => by
      cases hs : takeString r with
      | error e => simp [decodeCommand, takeBoth, hs, Except.map]
      | ok p => cases he : takeEos p.2 <;> simp [decodeCommand, takeBoth, hs, he, Except.map] }
theorem commandForm_txSend : CommandForm 0x5 takeString encodeString .txSend :=
  { operand := takeString_reads }
theorem commandForm_rxPush : CommandForm 0x6 takeString encodeString .rxPush :=
  { operand := takeString_reads }
theorem commandForm_rxDrain : CommandForm 0x7 takeNothing (fun _ => []) (fun _ => .rxDrain) :=
  { operand := takeNothing_reads }
theorem commandForm_rxEos : CommandForm 0x8 takeNothing (fun _ => []) (fun _ => .rxEos) :=
  { operand := takeNothing_reads }
theorem commandForm_rxDgram : CommandForm 0x9 takeString encodeString .rxDgram :=
  { operand := takeString_reads }
theorem commandForm_rxAbort : CommandForm 0xA takeNothing (fun _ => []) (fun _ => .rxAbort) :=
  { operand := takeNothing_reads }
theorem commandForm_brightness : CommandForm 0xB takeWord (fun cw => [.word cw]) .brightness :=
  { operand := takeWord_reads }
theorem commandForm_leftTally : CommandForm 0xC takeWord (fun cw => [.word cw]) .leftTally :=
  { operand := takeWord_reads }
theorem commandForm_textTally : CommandForm 0xD takeWord (fun cw => [.word cw]) .textTally :=
  { operand := takeWord_reads }
theorem commandForm_rightTally : CommandForm 0xE takeWord (fun cw => [.word cw]) .rightTally :=
  { operand := takeWord_reads }
theorem commandForm_isControlData : CommandForm 0xF takeWord (fun cw => [.word cw]) .isControlData :=
  { operand := takeWord_reads }

/-- The sixteen values of the command port. -/
theorem commandCode_cases (c : BitVec 4) :
    c = 0x0 ∨ c = 0x1 ∨ c = 0x2 ∨ c = 0x3 ∨ c = 0x4 ∨ c = 0x5 ∨ c = 0x6 ∨ c = 0x7 ∨ c = 0x8 ∨ c = 0x9 ∨
      c = 0xA ∨ c = 0xB ∨ c = 0xC ∨ c = 0xD ∨ c = 0xE ∨ c = 0xF := by
  revert c; decide

/-- R80: every code has its row. -/
theorem commandForm_exists (code : BitVec 4) :
    ∃ (α : Type) (take : List Beat → Except DecodeError (α × List Beat)) (enc : α → List Beat)
      (instr : α → Instr), CommandForm code take enc instr := by
  rcases commandCode_cases code with
    rfl | rfl | rfl | rfl | rfl | rfl | rfl | rfl | rfl | rfl | rfl | rfl | rfl | rfl | rfl | rfl
  · exact ⟨_, _, _, _, commandForm_reserved0⟩
  · exact ⟨_, _, _, _, commandForm_encode⟩
  · exact ⟨_, _, _, _, commandForm_decode⟩
  · exact ⟨_, _, _, _, commandForm_frame⟩
  · exact ⟨_, _, _, _, commandForm_deframe⟩
  · exact ⟨_, _, _, _, commandForm_txSend⟩
  · exact ⟨_, _, _, _, commandForm_rxPush⟩
  · exact ⟨_, _, _, _, commandForm_rxDrain⟩
  · exact ⟨_, _, _, _, commandForm_rxEos⟩
  · exact ⟨_, _, _, _, commandForm_rxDgram⟩
  · exact ⟨_, _, _, _, commandForm_rxAbort⟩
  · exact ⟨_, _, _, _, commandForm_brightness⟩
  · exact ⟨_, _, _, _, commandForm_leftTally⟩
  · exact ⟨_, _, _, _, commandForm_textTally⟩
  · exact ⟨_, _, _, _, commandForm_rightTally⟩
  · exact ⟨_, _, _, _, commandForm_isControlData⟩

section
variable {code : BitVec 4} {α : Type} {take : List Beat → Except DecodeError (α × List Beat)}
  {enc : α → List Beat} {instr : α → Instr}

/-- A command and its operand are read back. -/
theorem CommandForm.readBack (h : CommandForm code take enc instr) (a : α) (r : List Beat) :
    decodePort (encodePort (instr a) ++ r) = .ok (instr a, r) := by
  rw [h.encode, List.cons_append, decodePort, h.decode, h.operand.readBack, Except.map]

theorem CommandForm.noReset (h : CommandForm code take enc instr) (a : α) :
    firstReset (encodePort (instr a)) = none := by
  rw [h.encode]
  exact h.operand.noReset a

end

/-- The transfers read as an instruction are those the encoder writes for it, before something that may
follow it. -/
def ReadAsWritten (bs : List Beat) (i : Instr) (rest : List Beat) : Prop :=
  i.wellFormed = true ∧ followerAllowed i rest = true ∧ bs = encodePort i ++ rest

theorem decodeCommand_canonical (code : BitVec 4) (r : List Beat) (i : Instr) (rest : List Beat)
    (h : decodeCommand code r = .ok (i, rest)) : ReadAsWritten (.cmd code :: r) i rest := by
  obtain ⟨α, take, enc, instr, form⟩ := commandForm_exists code
  rw [form.decode] at h
  obtain ⟨a, ha, rfl⟩ := map_eq_ok h
  exact ⟨form.wellFormed a, form.follower a rest,
    by rw [form.encode, form.operand.canonical _ _ _ ha, List.cons_append]⟩

theorem decodeCommand_waits (code : BitVec 4) (r : List Beat) (e : DecodeError)
    (h : decodeCommand code r = .error e) (hw : e.waits = true) : firstReset (.cmd code :: r) = none := by
  obtain ⟨α, take, enc, instr, form⟩ := commandForm_exists code
  rw [form.decode] at h
  exact form.operand.waits r e (map_eq_error h) hw

/-! ## The stream tokens -/

/-- R78: any byte but `FE` is a `LIT`. -/
theorem decodeToken_lit (b : Byte) (r : List Beat) (h : b ≠ Config.esc) :
    decodeToken b r = .ok (.lit b, r) := by
  simp [decodeToken, h]

/-- R78: an `FE` is a `LONE_FE` before every follower that is allowed. -/
theorem decodeToken_loneFe (r : List Beat) (h : followerAllowed .loneFe r = true) :
    decodeToken Config.esc r = .ok (.loneFe, r) := by
  cases r with
  | nil => cases h
  | cons x r =>
    cases x with
    | rst tx rx => cases h
    | wire y =>
      obtain ⟨hesc, hstx⟩ : y ≠ Config.esc ∧ y ≠ Config.stx := by simpa [followerAllowed] using h
      simp [decodeToken, hesc, hstx]
    | _ => rfl

theorem decodeToken_canonical (b : Byte) (r : List Beat) (i : Instr) (rest : List Beat)
    (h : decodeToken b r = .ok (i, rest)) : ReadAsWritten (.wire b :: r) i rest := by
  by_cases hb : b = Config.esc
  · subst hb
    cases r with
    | nil => cases h
    | cons x r =>
      cases x with
      | rst tx rx => cases h
      | wire y =>
        by_cases hesc : y = Config.esc
        · subst hesc; cases h; exact ⟨rfl, rfl, rfl⟩
        · by_cases hstx : y = Config.stx
          · subst hstx; cases h; exact ⟨rfl, rfl, rfl⟩
          · have hlone : followerAllowed .loneFe (.wire y :: r) = true := by
              simp [followerAllowed, hesc, hstx]
            rw [decodeToken_loneFe _ hlone] at h
            cases h
            exact ⟨rfl, hlone, rfl⟩
      | _ => cases h; exact ⟨rfl, rfl, rfl⟩
  · rw [decodeToken_lit b r hb] at h
    cases h
    exact ⟨by simpa [Instr.wellFormed] using hb, rfl, rfl⟩

theorem decodeToken_waits (b : Byte) (r : List Beat) (e : DecodeError) (h : decodeToken b r = .error e)
    (hw : e.waits = true) : firstReset (.wire b :: r) = none := by
  by_cases hb : b = Config.esc
  · subst hb
    cases r with
    | nil => rfl
    | cons x r =>
      cases x with
      | rst tx rx => cases h; cases hw
      | wire y =>
        by_cases hesc : y = Config.esc
        · subst hesc; cases h
        · by_cases hstx : y = Config.stx
          · subst hstx; cases h
          · rw [decodeToken_loneFe _ (by simp [followerAllowed, hesc, hstx])] at h
            cases h
      | _ => cases h
  · rw [decodeToken_lit b r hb] at h
    cases h

/-! ## The wire layouts -/

theorem takeImage_encodeImage (l : Layout) (b : Bytes) (r : List Beat) :
    takeImage l b.length (encodeImage l b ++ r) = .ok (b, r) := by
  induction b with
  | nil => rfl
  | cons x b ih =>
    rw [encodeImage] at ih
    simp [encodeImage, takeImage, ih, Except.map]

theorem takeImage_canonical (l : Layout) (n : Nat) (bs : List Beat) (b : Bytes) (r : List Beat)
    (h : takeImage l n bs = .ok (b, r)) : b.length = n ∧ bs = encodeImage l b ++ r := by
  induction n generalizing bs b with
  | zero => cases h; exact ⟨rfl, rfl⟩
  | succ n ih =>
    unfold takeImage at h
    split at h
    · cases ‹n + 1 = 0›
    · next n' l' x r' heq =>
      cases heq
      split at h
      · next hl =>
        obtain ⟨b', hb, rfl⟩ := map_eq_ok (f := (x :: ·)) h
        obtain ⟨hlen, heq⟩ := ih r' b' hb
        exact ⟨by simp [hlen], by simp [encodeImage, hl, heq]⟩
      · cases h
    · cases h

theorem takeImage_waits (l : Layout) (n : Nat) (bs : List Beat) (e : DecodeError)
    (h : takeImage l n bs = .error e) (hw : e.waits = true) : firstReset bs = none := by
  induction n generalizing bs with
  | zero => cases h
  | succ n ih =>
    unfold takeImage at h
    split at h
    · cases h
    · next n' l' x r' heq =>
      cases heq
      split at h
      · exact ih r' (map_eq_error h)
      · cases h; cases hw
    · cases h; exact firstReset_of_transferError_waits hw

theorem firstReset_encodeImage (l : Layout) (b : Bytes) : firstReset (encodeImage l b) = none := by
  induction b with
  | nil => rfl
  | cons x b ih => exact ih

/-- A whole layout on the ports is read as the instruction of its bytes. -/
theorem decodePort_encodeImage (l : Layout) (b : Bytes) (r : List Beat) (h : b.length = l.size) :
    decodePort (encodeImage l b ++ r) = .ok (layoutInstr l b, r) := by
  have htake := takeImage_encodeImage l b r
  cases b with
  | nil => cases l <;> cases h
  | cons x b =>
    rw [h] at htake
    simp only [encodeImage, List.map_cons, List.cons_append] at htake ⊢
    rw [decodePort, htake, Except.map]

/-- R52, R56: a layout's bytes are written back as they were read. -/
theorem encodePort_layoutInstr (l : Layout) (b : Bytes) (h : b.length = l.size) :
    encodePort (layoutInstr l b) = encodeImage l b := by
  match l, b, h with
  | .packetFixed, [x₀, x₁, x₂, x₃, x₄, x₅], _ =>
    have h₀ : le16 (rd16 [x₀, x₁, x₂, x₃, x₄, x₅] 0) = [x₀, x₁] := le16_rd16_pair x₀ x₁ _
    have h₄ : le16 (rd16 [x₀, x₁, x₂, x₃, x₄, x₅] 4) = [x₄, x₅] := le16_rd16_pair x₄ x₅ []
    simp only [layoutInstr, encodePort, h₀, h₄]
    rfl
  | .messageFixed, [x₀, x₁, x₂, x₃, x₄, x₅], _ =>
    have h₀ : le16 (rd16 [x₀, x₁, x₂, x₃, x₄, x₅] 0) = [x₀, x₁] := le16_rd16_pair x₀ x₁ _
    have h₂ : le16 (rd16 [x₀, x₁, x₂, x₃, x₄, x₅] 2) = [x₂, x₃] := le16_rd16_pair x₂ x₃ [x₄, x₅]
    have h₄ : le16 (rd16 [x₀, x₁, x₂, x₃, x₄, x₅] 4) = [x₄, x₅] := le16_rd16_pair x₄ x₅ []
    simp only [layoutInstr, encodePort, h₀, h₂, h₄]
    rfl
  | .controlWord, [x₀, x₁], _ => exact congrArg (encodeImage .controlWord) (le16_rd16_pair x₀ x₁ [])
  | .flags, [x], _ => rfl

theorem layoutInstr_wellFormed (l : Layout) (b : Bytes) : (layoutInstr l b).wellFormed = true := by
  cases l <;> rfl

theorem layoutInstr_follower (l : Layout) (b : Bytes) (r : List Beat) :
    followerAllowed (layoutInstr l b) r = true := by
  cases l <;> rfl

/-- R71: the fixed part of a packet is read back from its six bytes. -/
theorem layoutInstr_packetFixed (pbc : Half) (v f : Byte) (s : Half) :
    layoutInstr .packetFixed (le16 pbc ++ [v, f] ++ le16 s) = .packetFixed pbc v f s := by
  have h₀ : rd16 (le16 pbc ++ [v, f] ++ le16 s) 0 = pbc := by
    rw [List.append_assoc, rd16_le16_append]
  have h₄ : rd16 (le16 pbc ++ [v, f] ++ le16 s) 4 = s :=
    (rd16_append_right (le16 pbc ++ [v, f]) (le16 s) 0).trans (rd16_le16_append s [])
  rw [layoutInstr, h₀, h₄]
  rfl

/-- R72: the fixed part of a message is read back from its six bytes. -/
theorem layoutInstr_messageFixed (i c t : Half) :
    layoutInstr .messageFixed (le16 i ++ le16 c ++ le16 t) = .messageFixed i c t := by
  have h₀ : rd16 (le16 i ++ le16 c ++ le16 t) 0 = i := by rw [List.append_assoc, rd16_le16_append]
  have h₂ : rd16 (le16 i ++ le16 c ++ le16 t) 2 = c := by
    rw [List.append_assoc]
    exact (rd16_append_right (le16 i) _ 0).trans (rd16_le16_append c _)
  have h₄ : rd16 (le16 i ++ le16 c ++ le16 t) 4 = t :=
    (rd16_append_right (le16 i ++ le16 c) (le16 t) 0).trans (rd16_le16_append t [])
  rw [layoutInstr, h₀, h₂, h₄]

/-- R75: a control word is read back from its two bytes. -/
theorem layoutInstr_controlWord (cw : Half) : layoutInstr .controlWord (le16 cw) = .controlWord cw :=
  congrArg Instr.controlWord (rd16_le16_append cw [])

/-! ## The ports -/

/-- Every well-formed instruction is read back before what may follow it. -/
theorem decodePort_encodePort (i : Instr) (rest : List Beat) (hwf : i.wellFormed = true)
    (hfollow : followerAllowed i rest = true) : decodePort (encodePort i ++ rest) = .ok (i, rest) := by
  cases i with
  | reserved0 => exact commandForm_reserved0.readBack () rest
  | encode p => exact commandForm_encode.readBack p rest
  | decode b => exact commandForm_decode.readBack b rest
  | frame b => exact commandForm_frame.readBack b rest
  | deframe b eos => exact commandForm_deframe.readBack (b, eos) rest
  | txSend b => exact commandForm_txSend.readBack b rest
  | rxPush c => exact commandForm_rxPush.readBack c rest
  | rxDrain => exact commandForm_rxDrain.readBack () rest
  | rxEos => exact commandForm_rxEos.readBack () rest
  | rxDgram d => exact commandForm_rxDgram.readBack d rest
  | rxAbort => exact commandForm_rxAbort.readBack () rest
  | brightness cw => exact commandForm_brightness.readBack cw rest
  | leftTally cw => exact commandForm_leftTally.readBack cw rest
  | textTally cw => exact commandForm_textTally.readBack cw rest
  | rightTally cw => exact commandForm_rightTally.readBack cw rest
  | isControlData cw => exact commandForm_isControlData.readBack cw rest
  | packetFixed pbc v f s =>
    rw [encodePort, decodePort_encodeImage .packetFixed _ rest rfl, layoutInstr_packetFixed]
  | messageFixed i c t =>
    rw [encodePort, decodePort_encodeImage .messageFixed _ rest rfl, layoutInstr_messageFixed]
  | controlWord cw =>
    rw [encodePort, decodePort_encodeImage .controlWord _ rest rfl, layoutInstr_controlWord]
  | flags f => exact decodePort_encodeImage .flags [f] rest rfl
  | sof => rfl
  | escFe => rfl
  | lit x => exact decodeToken_lit x rest (by simpa [Instr.wellFormed] using hwf)
  | loneFe => exact decodeToken_loneFe rest hfollow

/-- What is read as an instruction is what the encoder writes for it. -/
theorem decodePort_canonical (bs : List Beat) (i : Instr) (rest : List Beat)
    (h : decodePort bs = .ok (i, rest)) : ReadAsWritten bs i rest := by
  unfold decodePort at h
  split at h
  · exact decodeCommand_canonical _ _ i rest h
  · exact decodeToken_canonical _ _ i rest h
  · next l b r =>
    obtain ⟨img, himg, rfl⟩ := map_eq_ok h
    obtain ⟨hlen, heq⟩ := takeImage_canonical _ _ _ _ _ himg
    exact ⟨layoutInstr_wellFormed l img, layoutInstr_follower l img rest,
      by rw [heq, encodePort_layoutInstr l img hlen]⟩
  · cases h

/-- R208: the block waits only while no `rst` stands on the ports. -/
theorem decodePort_waits (bs : List Beat) (e : DecodeError) (h : decodePort bs = .error e)
    (hw : e.waits = true) : firstReset bs = none := by
  unfold decodePort at h
  split at h
  · exact decodeCommand_waits _ _ e h hw
  · exact decodeToken_waits _ _ e h hw
  · exact takeImage_waits _ _ _ e (map_eq_error h) hw
  · cases h; exact firstReset_of_transferError_waits hw

/-! ## An `rst` behind what is read -/

/-- No instruction's transfers hold an `rst`. -/
theorem firstReset_encodePort (i : Instr) : firstReset (encodePort i) = none := by
  cases i with
  | encode p => exact commandForm_encode.noReset p
  | decode b => exact commandForm_decode.noReset b
  | frame b => exact commandForm_frame.noReset b
  | deframe b eos => exact commandForm_deframe.noReset (b, eos)
  | txSend b => exact commandForm_txSend.noReset b
  | rxPush c => exact commandForm_rxPush.noReset c
  | rxDgram d => exact commandForm_rxDgram.noReset d
  | packetFixed => exact firstReset_encodeImage _ _
  | messageFixed => exact firstReset_encodeImage _ _
  | controlWord => exact firstReset_encodeImage _ _
  | _ => rfl

/-- An `rst` further back changes nothing about what may follow an instruction: it is itself no follower of an
`FE`, as nothing is none. -/
theorem followerAllowed_append_rst (i : Instr) (r : List Beat) (tx rx : TransportKind) (rest : List Beat) :
    followerAllowed i (r ++ .rst tx rx :: rest) = followerAllowed i r := by
  cases i with
  | loneFe =>
    cases r with
    | nil => rfl
    | cons x r => cases x <;> rfl
  | _ => rfl

/-- Where an `rst` stands behind `pre`, a beginning without `rst` ends inside `pre`. -/
theorem exists_eq_append_of_append_rst {a pre q rest : List Beat} {tx rx : TransportKind}
    (hpre : firstReset pre = none) (ha : firstReset a = none) (h : pre ++ .rst tx rx :: rest = a ++ q) :
    ∃ c, pre = a ++ c ∧ q = c ++ .rst tx rx :: rest := by
  rcases List.append_eq_append_iff.mp h with ⟨c, hac, hc⟩ | ⟨c, hpre, hq⟩
  · cases c with
    | nil => exact ⟨[], by simpa using hac.symm, by simpa using hc.symm⟩
    | cons x c =>
      cases hc
      rw [hac, Machine.firstReset_append _ _ hpre] at ha
      cases ha
  · exact ⟨c, hpre, hq⟩

/-- R220: an `rst` behind transfers without one changes nothing about the instruction read from them. -/
theorem decodePort_append_rst (pre : List Beat) (tx rx : TransportKind) (rest : List Beat) (i : Instr)
    (r : List Beat) (h : decodePort pre = .ok (i, r)) :
    decodePort (pre ++ .rst tx rx :: rest) = .ok (i, r ++ .rst tx rx :: rest) := by
  obtain ⟨hwf, hfollow, rfl⟩ := decodePort_canonical pre i r h
  rw [List.append_assoc]
  exact decodePort_encodePort i _ hwf (by rwa [followerAllowed_append_rst])

/-- R220: transfers without `rst` that are read as no instruction are read as none with an `rst` behind them,
and the block does not wait. -/
theorem decodePort_append_rst_error (pre : List Beat) (tx rx : TransportKind) (rest : List Beat)
    (e : DecodeError) (hpre : firstReset pre = none) (h : decodePort pre = .error e) :
    ∃ e', decodePort (pre ++ .rst tx rx :: rest) = .error e' ∧ e'.waits = false := by
  cases hd : decodePort (pre ++ .rst tx rx :: rest) with
  | ok p =>
    obtain ⟨i, q⟩ := p
    obtain ⟨hwf, hfollow, heq⟩ := decodePort_canonical _ i q hd
    obtain ⟨c, rfl, rfl⟩ := exists_eq_append_of_append_rst hpre (firstReset_encodePort i) heq
    rw [followerAllowed_append_rst] at hfollow
    rw [decodePort_encodePort i c hwf hfollow] at h
    cases h
  | error e' =>
    refine ⟨e', rfl, ?_⟩
    cases hw : e'.waits with
    | false => rfl
    | true =>
      have hnone := decodePort_waits _ e' hd hw
      rw [Machine.firstReset_append pre _ hpre] at hnone
      cases hnone

end Sys2Proof

namespace Sys2Proof.Machine

/-- R220: where nothing is read and the block does not wait, an `rst` on the ports resets. -/
theorem step_of_decodePort_error (s : State) (e : DecodeError) (tx rx : TransportKind) (rest : List Beat)
    (hd : decodePort s.port = .error e) (hw : e.waits = false)
    (hr : firstReset s.port = some (tx, rx, rest)) : step s = .next (s.assertReset tx rx rest) := by
  unfold step
  rw [hd]
  cases e with
  | incomplete => cases hw
  | pendingFe => cases hw
  | abandoned => exact s.resetOr_some _ tx rx rest hr
  | malformed => exact s.resetOr_some _ tx rx rest hr

/-! ## The statements -/

/-- Settles O1: by the operand's reader and writer for a command, by its bytes for a layout, by its follower
for a token. -/
theorem portReadsBackEveryInstruction : Obligations.PortReadsBackEveryInstruction :=
  decodePort_encodePort

/-- Settles O2: by the kind of the first transfer, which fixes the encoding that is read. -/
theorem portReadingIsCanonical : Obligations.PortReadingIsCanonical :=
  decodePort_canonical

/-- Settles O7: with the `rst` behind them, transfers that are no instruction are abandoned, and an instruction
that is refused is still refused; in both cases the step is the first reset on the ports. -/
theorem resetRestoresEveryField : Obligations.ResetRestoresEveryField := by
  intro s pre tx rx rest hpre hbefore hport
  have hreset : firstReset s.port = some (tx, rx, rest) := by
    rw [hport, firstReset_append pre _ hpre, firstReset]
  rcases hbefore with ⟨e, he⟩ | ⟨i, r, f, hi, href⟩
  · obtain ⟨e', he', hw⟩ := decodePort_append_rst_error pre tx rx rest e hpre he
    exact step_of_decodePort_error s e' tx rx rest (hport ▸ he') hw hreset
  · have hread : decodePort s.port = .ok (i, r ++ .rst tx rx :: rest) :=
      hport ▸ decodePort_append_rst pre tx rx rest i r hi
    rw [step_of_decodePort_ok s i _ hread, href, State.acceptTransfers_refused,
      s.resetOr_some _ tx rx rest hreset]
    rfl

end Sys2Proof.Machine
end

section
/-! SUPPORT. The byte-serial de-framer against the two scans of the buffer (R133, R134, R137): before the first
marker it hunts, behind it it un-stuffs up to where the boundary scan stops. -/

namespace Sys2Proof.Machine

/-! ## Hunting for the first marker -/

/-- R133: a position that opens no marker is passed. -/
theorem firstMarker_pass (x y : Byte) (r : Bytes) (h : ¬ (x = Config.esc ∧ y = Config.stx)) :
    firstMarker (x :: y :: r) = (firstMarker (y :: r)).map (· + 1) := by
  rw [firstMarker, if_neg h]

/-- R137: a position that opens no marker leaves the hunt where its next byte alone would put it. -/
theorem Serial.run_hunt0_pass (acc : Bytes) (x y : Byte) (r : Bytes)
    (h : ¬ (x = Config.esc ∧ y = Config.stx)) :
    Serial.run ⟨.hunt0, acc⟩ (x :: y :: r) = Serial.run ⟨.hunt0, acc⟩ (y :: r) := by
  by_cases hx : x = Config.esc
  · have hy : y ≠ Config.stx := fun hy => h ⟨hx, hy⟩
    by_cases hy' : y = Config.esc <;> simp [Serial.run, Serial.byte, hx, hy, hy']
  · simp [Serial.run, Serial.byte, hx]

/-- R137: with no marker in the buffer the machine goes on hunting, and remembers a last `FE`. -/
theorem Serial.run_hunt0_of_no_marker (acc b : Bytes) (h : firstMarker b = none) :
    Serial.run ⟨.hunt0, acc⟩ b = (⟨if b.getLast? = some Config.esc then .hunt1 else .hunt0, acc⟩, []) := by
  induction b using firstMarker.induct with
  | case1 => rfl
  | case2 x => by_cases hx : x = Config.esc <;> simp [Serial.run, Serial.byte, hx]
  | case3 x y r hm => rw [firstMarker, if_pos hm] at h; cases h
  | case4 x y r hm ih =>
    rw [firstMarker_pass x y r hm, Option.map_eq_none_iff] at h
    rw [Serial.run_hunt0_pass acc x y r hm, ih h, List.getLast?_cons_cons]

/-- R133, R137: the first marker splits the buffer, and behind it the machine is in the body of a frame. -/
theorem Serial.run_hunt0_of_marker (acc b : Bytes) (k : Nat) (h : firstMarker b = some k) :
    ∃ pre r, b = pre ++ Config.esc :: Config.stx :: r ∧ k = pre.length ∧
      Serial.run ⟨.hunt0, acc⟩ b = Serial.run ⟨.body0, []⟩ r := by
  induction b using firstMarker.induct generalizing k with
  | case1 => cases h
  | case2 x => cases h
  | case3 x y r hm =>
    obtain ⟨rfl, rfl⟩ := hm
    rw [firstMarker_marker] at h
    cases h
    exact ⟨[], r, rfl, rfl, rfl⟩
  | case4 x y r hm ih =>
    rw [firstMarker_pass x y r hm, Option.map_eq_some_iff] at h
    obtain ⟨k', hk', rfl⟩ := h
    obtain ⟨pre, r', hsplit, rfl, hrun⟩ := ih k' hk'
    exact ⟨x :: pre, r', by rw [hsplit, List.cons_append], rfl,
      by rw [Serial.run_hunt0_pass acc x y r hm, hrun]⟩

/-! ## The body of a frame, token by token -/

/-- R137: `LIT`. -/
theorem Serial.run_body0_lit (acc : Bytes) (x : Byte) (r : Bytes) (h : x ≠ Config.esc) :
    Serial.run ⟨.body0, acc⟩ (x :: r) = Serial.run ⟨.body0, acc ++ [x]⟩ r := by
  simp [Serial.run, Serial.byte, h]

/-- R137: `ESC_FE`. -/
theorem Serial.run_body0_pair (acc r : Bytes) :
    Serial.run ⟨.body0, acc⟩ (Config.esc :: Config.esc :: r)
      = Serial.run ⟨.body0, acc ++ [Config.esc]⟩ r := by
  simp [Serial.run, Serial.byte]

/-- R137: `SOF` emits the payload and opens the next frame. -/
theorem Serial.run_body0_sof (acc r : Bytes) :
    Serial.run ⟨.body0, acc⟩ (Config.esc :: Config.stx :: r)
      = ((Serial.run ⟨.body0, []⟩ r).1, acc :: (Serial.run ⟨.body0, []⟩ r).2) := by
  simp [Serial.run, Serial.byte, show Config.stx ≠ Config.esc by decide]

/-- R137, R140: `LONE_FE`; its follower is read as the next token. -/
theorem Serial.run_body0_lone (acc : Bytes) (y : Byte) (r : Bytes) (he : y ≠ Config.esc)
    (hs : y ≠ Config.stx) :
    Serial.run ⟨.body0, acc⟩ (Config.esc :: y :: r)
      = Serial.run ⟨.body0, acc ++ [Config.esc]⟩ (y :: r) := by
  simp [Serial.run, Serial.byte, he, hs]

/-- R78: induction along the tokens: a string is empty, a pending `FE`, or one of the four tokens with what
follows it. Behind a start marker the tokens belong to another frame. -/
theorem token_induction {P : Bytes → Prop} (nil : P []) (pending : P [Config.esc])
    (lit : ∀ x r, x ≠ Config.esc → P r → P (x :: r))
    (pair : ∀ r, P r → P (Config.esc :: Config.esc :: r))
    (sof : ∀ r, P (Config.esc :: Config.stx :: r))
    (lone : ∀ y r, y ≠ Config.esc → y ≠ Config.stx → P (y :: r) → P (Config.esc :: y :: r)) (b : Bytes) :
    P b := by
  induction hn : b.length using Nat.strong_induction_on generalizing b with
  | _ n ih =>
    subst hn
    match b with
    | [] => exact nil
    | x :: r =>
      by_cases hx : x = Config.esc
      · subst hx
        match r with
        | [] => exact pending
        | y :: r =>
          by_cases he : y = Config.esc
          · subst he
            exact pair r (ih _ (by simp) r rfl)
          · by_cases hs : y = Config.stx
            · subst hs
              exact sof r
            · exact lone y r he hs (ih _ (by simp) (y :: r) rfl)
      · exact lit x r hx (ih _ (by simp) r rfl)

/-- R134, R137: when the boundary scan runs out, the machine has un-stuffed all of the body. -/
theorem Serial.run_body0_of_atEnd (j n : Nat) (acc b : Bytes) (h : boundaryFrom j b = .atEnd n) :
    Serial.run ⟨.body0, acc⟩ b = (⟨.body0, acc ++ unstuff b⟩, []) := by
  induction b using token_induction generalizing j acc with
  | nil => simp [Serial.run]
  | pending => cases h
  | lit x r hx ih =>
    rw [boundaryFrom_lit j x r hx] at h
    rw [Serial.run_body0_lit acc x r hx, ih _ _ h, unstuff_other x r hx, List.append_assoc,
      List.singleton_append]
  | pair r ih =>
    rw [boundaryFrom_pair] at h
    rw [Serial.run_body0_pair, ih _ _ h, unstuff_pair, List.append_assoc, List.singleton_append]
  | sof r => rw [boundaryFrom_sof] at h; cases h
  | lone y r he hs ih =>
    rw [boundaryFrom_lone j y r he hs] at h
    rw [Serial.run_body0_lone acc y r he hs, ih _ _ h, unstuff_lone y r he, List.append_assoc,
      List.singleton_append]

/-- R134, R137: when the boundary scan is pending, the machine has un-stuffed the body before the last `FE`. -/
theorem Serial.run_body0_of_pending (j e : Nat) (acc b : Bytes) (h : boundaryFrom j b = .pending e) :
    ∃ body, b = body ++ [Config.esc] ∧ e = j + body.length ∧
      Serial.run ⟨.body0, acc⟩ b = (⟨.body1, acc ++ unstuff body⟩, []) := by
  induction b using token_induction generalizing j acc with
  | nil => cases h
  | pending =>
    rw [boundaryFrom_pending] at h
    cases h
    exact ⟨[], rfl, rfl, by simp [Serial.run, Serial.byte]⟩
  | lit x r hx ih =>
    rw [boundaryFrom_lit j x r hx] at h
    obtain ⟨body, rfl, rfl, hrun⟩ := ih _ (acc ++ [x]) h
    exact ⟨x :: body, rfl, by simp; omega,
      by rw [Serial.run_body0_lit acc x _ hx, hrun, unstuff_other x body hx]; simp⟩
  | pair r ih =>
    rw [boundaryFrom_pair] at h
    obtain ⟨body, rfl, rfl, hrun⟩ := ih _ (acc ++ [Config.esc]) h
    exact ⟨Config.esc :: Config.esc :: body, rfl, by simp; omega,
      by rw [Serial.run_body0_pair, hrun, unstuff_pair]; simp⟩
  | sof r => rw [boundaryFrom_sof] at h; cases h
  | lone y r he hs ih =>
    rw [boundaryFrom_lone j y r he hs] at h
    obtain ⟨body, hbody, rfl, hrun⟩ := ih _ (acc ++ [Config.esc]) h
    cases body with
    | nil => cases hbody; exact absurd rfl he
    | cons z body =>
      cases hbody
      exact ⟨Config.esc :: y :: body, rfl, by simp; omega,
        by rw [Serial.run_body0_lone acc y _ he hs, hrun, unstuff_lone y body he]; simp⟩

/-- R134, R137: when the boundary scan finds the next marker, the machine has emitted the un-stuffed body before
it and begun the next frame. -/
theorem Serial.run_body0_of_marker (j e : Nat) (acc b : Bytes) (h : boundaryFrom j b = .marker e) :
    ∃ body r, b = body ++ Config.esc :: Config.stx :: r ∧ e = j + body.length ∧
      Serial.run ⟨.body0, acc⟩ b
        = ((Serial.run ⟨.body0, []⟩ r).1, (acc ++ unstuff body) :: (Serial.run ⟨.body0, []⟩ r).2) := by
  induction b using token_induction generalizing j acc with
  | nil => cases h
  | pending => cases h
  | lit x r hx ih =>
    rw [boundaryFrom_lit j x r hx] at h
    obtain ⟨body, r', rfl, rfl, hrun⟩ := ih _ (acc ++ [x]) h
    exact ⟨x :: body, r', rfl, by simp; omega,
      by rw [Serial.run_body0_lit acc x _ hx, hrun, unstuff_other x body hx]; simp⟩
  | pair r ih =>
    rw [boundaryFrom_pair] at h
    obtain ⟨body, r', rfl, rfl, hrun⟩ := ih _ (acc ++ [Config.esc]) h
    exact ⟨Config.esc :: Config.esc :: body, r', rfl, by simp; omega,
      by rw [Serial.run_body0_pair, hrun, unstuff_pair]; simp⟩
  | sof r =>
    rw [boundaryFrom_sof] at h
    cases h
    exact ⟨[], r, rfl, rfl, by rw [Serial.run_body0_sof]; simp⟩
  | lone y r he hs ih =>
    rw [boundaryFrom_lone j y r he hs] at h
    obtain ⟨body, r', hbody, rfl, hrun⟩ := ih _ (acc ++ [Config.esc]) h
    cases body with
    | nil => cases hbody; exact absurd rfl he
    | cons z body =>
      cases hbody
      exact ⟨Config.esc :: y :: body, r', rfl, by simp; omega,
        by rw [Serial.run_body0_lone acc y _ he hs, hrun, unstuff_lone y body he]; simp⟩

/-! ## The scan state of a buffer -/

/-- R133: what stands behind a first marker. -/
theorem drop_behind_marker (pre r : Bytes) :
    (pre ++ Config.esc :: Config.stx :: r).drop (pre.length + 2) = r := by
  rw [List.drop_append, List.drop_of_length_le (by omega)]
  simp

/-- R137: with no marker in the buffer the scan state is in the hunt. -/
theorem Serial.ofBuffer_of_no_marker (buf : Bytes) (h : firstMarker buf = none) :
    Serial.ofBuffer buf = ⟨if buf.getLast? = some Config.esc then .hunt1 else .hunt0, []⟩ := by
  rw [Serial.ofBuffer, Serial.reset, Serial.run_hunt0_of_no_marker [] buf h]

/-- R137: a buffer with a marker is read as the body behind it. -/
theorem Serial.ofBuffer_of_marker (buf : Bytes) (k : Nat) (h : firstMarker buf = some k) :
    ∃ pre r, buf = pre ++ Config.esc :: Config.stx :: r ∧ k = pre.length ∧
      boundary buf (k + 2) = boundaryFrom (k + 2) r ∧
      Serial.ofBuffer buf = (Serial.run ⟨.body0, []⟩ r).1 := by
  obtain ⟨pre, r, rfl, rfl, hrun⟩ := Serial.run_hunt0_of_marker [] buf k h
  exact ⟨pre, r, rfl, rfl, by rw [boundary, drop_behind_marker], by rw [Serial.ofBuffer, Serial.reset, hrun]⟩

theorem Serial.ofBuffer_of_pending (buf : Bytes) (k e : Nat) (hk : firstMarker buf = some k)
    (he : boundary buf (k + 2) = .pending e) :
    Serial.ofBuffer buf = ⟨.body1, unstuff ((buf.take e).drop (k + 2))⟩ := by
  obtain ⟨pre, r, hbuf, rfl, hscan, hserial⟩ := Serial.ofBuffer_of_marker buf k hk
  obtain ⟨body, rfl, rfl, hrun⟩ := Serial.run_body0_of_pending _ e [] r (hscan ▸ he)
  have htake : (buf.take (pre.length + 2 + body.length)).drop (pre.length + 2) = body := by
    rw [List.drop_take, hbuf, drop_behind_marker]
    simp
  rw [hserial, hrun, htake, List.nil_append]

theorem Serial.ofBuffer_of_atEnd (buf : Bytes) (k n : Nat) (hk : firstMarker buf = some k)
    (hn : boundary buf (k + 2) = .atEnd n) :
    Serial.ofBuffer buf = ⟨.body0, unstuff (buf.drop (k + 2))⟩ := by
  obtain ⟨pre, r, rfl, rfl, hscan, hserial⟩ := Serial.ofBuffer_of_marker buf k hk
  rw [hserial, Serial.run_body0_of_atEnd _ n [] r (hscan ▸ hn), drop_behind_marker, List.nil_append]

/-- R134: where the boundary scan finds the next marker, that marker stands. -/
theorem Serial.ofBuffer_of_next_marker (buf : Bytes) (k e : Nat) (hk : firstMarker buf = some k)
    (he : boundary buf (k + 2) = .marker e) :
    (∃ r, buf.drop e = Config.esc :: Config.stx :: r) ∧
      Serial.ofBuffer buf = Serial.ofBuffer (buf.drop e) := by
  obtain ⟨pre, r, hbuf, rfl, hscan, hserial⟩ := Serial.ofBuffer_of_marker buf k hk
  obtain ⟨body, r', rfl, rfl, hrun⟩ := Serial.run_body0_of_marker _ e [] r (hscan ▸ he)
  have hdrop : buf.drop (pre.length + 2 + body.length) = Config.esc :: Config.stx :: r' := by
    rw [← List.drop_drop, hbuf, drop_behind_marker, List.drop_left]
  exact ⟨⟨r', hdrop⟩, by rw [hserial, hrun, hdrop]; rfl⟩

/-- R137: the end of the stream puts a buffer with a marker in it back to reset: the frame in progress ends. -/
theorem Serial.eos_ofBuffer_of_no_next_marker (buf : Bytes) (k : Nat) (hk : firstMarker buf = some k)
    (h : ∀ e, boundary buf (k + 2) ≠ .marker e) : (Serial.ofBuffer buf).eos.1 = Serial.reset := by
  cases hb : boundary buf (k + 2) with
  | marker e => exact absurd hb (h e)
  | pending e => rw [Serial.ofBuffer_of_pending buf k e hk hb]; rfl
  | atEnd n => rw [Serial.ofBuffer_of_atEnd buf k n hk hb]; rfl

/-! ## The statement -/

/-- Settles O32: one scan of the tokens behind the first marker for each of the three ends of the boundary
scan. -/
theorem scanStateIsAFunctionOfTheBuffer : Obligations.ScanStateIsAFunctionOfTheBuffer := by
  intro buf
  refine ⟨fun h => ?noMarker, Serial.ofBuffer_of_pending buf, Serial.ofBuffer_of_atEnd buf,
    fun k e hk he => (Serial.ofBuffer_of_next_marker buf k e hk he).2⟩
  case noMarker =>
    rw [Serial.ofBuffer_of_no_marker buf h, Config.esc]
    split <;> rfl

end Sys2Proof.Machine
end

section
/-! SUPPORT. What an instruction can do to the state, said once for all instructions: it is refused, or it has
one of eight effects and leaves a result. Which of these it is depends on the configuration, the capacity, `RXBUF`
and `RX_EOS` alone. The statements on the frame, the invariant, the logs, the result port and the order of TX and
RX commands follow (R20, R26, R29, R30, R31). -/

namespace Sys2Proof.Machine

/-! ## Effects -/

/-- What an accepted instruction does to the state besides leaving its result. -/
inductive Effect where
  /-- Nothing: the pure commands and the wire layouts (R168). -/
  | keep
  /-- `ENCODE` leaves the staging store empty (R31(a)). -/
  | releaseStaging
  /-- `TX_SEND` (R160). -/
  | transmit (unit : Bytes)
  /-- Bytes of the stream arrive (R161). -/
  | push (c : Bytes)
  /-- `RX_DRAIN` that finds a frame (R162). -/
  | takeFrame (d : Deframed)
  /-- `RX_ABORT`, and `RX_DRAIN` that finds none at the end of the stream (R162, R165). -/
  | emptyChannel
  /-- `RX_EOS` (R163). -/
  | endStream
  /-- `RX_DGRAM` (R164). -/
  | deliver (raw : Bytes)

/-- The effect, in the model's own operations. -/
def Effect.apply : Effect → State → State
  | .keep, s => s
  | .releaseStaging, s => s.releaseStaging
  | .transmit unit, s => s.transmit unit
  | .push c, s => s.pushBytes c
  | .takeFrame d, s => (s.setRemainder d.rest).deliver d.payload
  | .emptyChannel, s => s.emptyChannel
  | .endStream, s => s.endStream
  | .deliver raw, s => s.deliver raw

/-- What the state grants where an instruction has the effect. -/
def Effect.Granted (s : State) : Effect → Prop
  | .keep | .releaseStaging | .transmit _ | .emptyChannel => True
  | .push c => s.acceptsBytes c = true
  | .takeFrame d => s.rxKind = .stream ∧ d = deframeBytes s.rxbuf s.rxEos ∧ d.found = true
  | .endStream => s.rxKind = .stream
  | .deliver _ => s.rxKind = .datagram

/-- R20: the effects a TX command can have. -/
def Effect.onTx : Effect → Bool
  | .keep | .releaseStaging | .transmit _ => true
  | .push _ | .takeFrame _ | .emptyChannel | .endStream | .deliver _ => false

/-- R20: the effects an RX command can have. -/
def Effect.onRx : Effect → Bool
  | .releaseStaging | .transmit _ => false
  | .keep | .push _ | .takeFrame _ | .emptyChannel | .endStream | .deliver _ => true

/-- Two states agree in everything that decides what an instruction does: the configuration, the capacity,
`RXBUF` and `RX_EOS`. -/
structure State.SameControls (s s' : State) : Prop where
  txKind : s'.txKind = s.txKind
  rxKind : s'.rxKind = s.rxKind
  rxbufCap : s'.rxbufCap = s.rxbufCap
  rxbuf : s'.rxbuf = s.rxbuf
  rxEos : s'.rxEos = s.rxEos

theorem State.SameControls.refl (s : State) : s.SameControls s := ⟨rfl, rfl, rfl, rfl, rfl⟩

/-- R20: a TX command's effect touches nothing that decides. -/
theorem Effect.sameControls_of_onTx {e : Effect} (h : e.onTx = true) (s : State) (r : Response) :
    s.SameControls ((e.apply s).respond r) := by
  cases e with
  | keep | releaseStaging | transmit => exact ⟨rfl, rfl, rfl, rfl, rfl⟩
  | _ => cases h

/-! ## Every instruction is refused or has an effect -/

/-- Refused here, and in every state that agrees in what decides. -/
def RefusedAlike (f : State → Host.Outcome State Fault Refusal) (s : State) : Prop :=
  ∃ r, ∀ s', s.SameControls s' → f s' = .refused r

/-- Granted here and carried out, here and in every state that agrees in what decides. -/
structure CarriesOut (f : State → Host.Outcome State Fault Refusal) (s : State) (e : Effect) (r : Response) :
    Prop where
  granted : e.Granted s
  answers : ∀ s', s.SameControls s' → f s' = .next ((e.apply s').respond r)

/-- R161: bytes of the stream are pushed or refused. -/
theorem receiveBytes_decided (c : Bytes) (s : State) :
    RefusedAlike (receiveBytes c) s ∨ CarriesOut (receiveBytes c) s (.push c) .done := by
  have halike : ∀ s', s.SameControls s' → s'.fits c = s.fits c := by
    intro s' h
    rw [State.fits, State.fits, h.rxbufCap, h.rxbuf]
  cases hk : s.rxKind with
  | datagram => exact .inl ⟨.wrongTransportKind, fun s' h => by simp [receiveBytes, h.rxKind, hk]⟩
  | stream =>
    cases he : s.rxEos with
    | true => exact .inl ⟨.streamEnded, fun s' h => by simp [receiveBytes, h.rxKind, hk, h.rxEos, he]⟩
    | false =>
      cases hf : s.fits c with
      | false =>
        exact .inl ⟨.bufferFull, fun s' h => by
          simp [receiveBytes, h.rxKind, hk, h.rxEos, he, halike s' h, hf]⟩
      | true =>
        exact .inr ⟨(s.acceptsBytes_iff c).2 ⟨hk, he, hf⟩, fun s' h => receiveBytes_accepted c s'
          ((s'.acceptsBytes_iff c).2 ⟨h.rxKind.trans hk, h.rxEos.trans he, (halike s' h).trans hf⟩)⟩

/-- R162: a drain takes a frame, empties the channel or keeps it, or is refused. -/
theorem execRxDrain_decided (s : State) :
    RefusedAlike execRxDrain s ∨ ∃ e r, CarriesOut execRxDrain s e r ∧ e.onRx = true := by
  cases hk : s.rxKind with
  | datagram => exact .inl ⟨.wrongTransportKind, fun s' h => by simp [execRxDrain, h.rxKind, hk]⟩
  | stream =>
    refine .inr ?_
    cases hf : (deframeBytes s.rxbuf s.rxEos).found with
    | true =>
      exact ⟨.takeFrame (deframeBytes s.rxbuf s.rxEos), .found true, ⟨⟨hk, rfl, hf⟩, fun s' h => by
        simp [execRxDrain, Effect.apply, h.rxKind, hk, h.rxbuf, h.rxEos, hf]⟩, rfl⟩
    | false =>
      cases he : s.rxEos with
      | true =>
        rw [he] at hf
        exact ⟨.emptyChannel, .found false, ⟨trivial, fun s' h => by
          simp [execRxDrain, Effect.apply, h.rxKind, hk, h.rxbuf, h.rxEos, he, hf]⟩, rfl⟩
      | false =>
        rw [he] at hf
        exact ⟨.keep, .found false, ⟨trivial, fun s' h => by
          simp [execRxDrain, Effect.apply, h.rxKind, hk, h.rxbuf, h.rxEos, he, hf]⟩, rfl⟩

/-- Every instruction is refused or has an effect, and an RX command has one on the RX unit. -/
theorem exec_decided (i : Instr) (s : State) :
    RefusedAlike (exec i) s ∨
      ∃ e r, CarriesOut (exec i) s e r ∧ (isRxCommand i = true → e.onRx = true) := by
  have hpush : ∀ c, RefusedAlike (receiveBytes c) s ∨ ∃ e r, CarriesOut (receiveBytes c) s e r ∧
      (isRxCommand i = true → e.onRx = true) := fun c =>
    (receiveBytes_decided c s).imp id fun h => ⟨.push c, .done, h, fun _ => rfl⟩
  cases i with
  | reserved0 => exact .inl ⟨.reservedCommand, fun _ _ => rfl⟩
  | encode p =>
    exact .inr ⟨.releaseStaging, Response.ofEncode (encodeImageBytes p),
      ⟨trivial, fun s' _ => execEncode_eq p s'⟩, fun h => by cases h⟩
  | decode b =>
    exact .inr ⟨.keep, Response.ofDecode (decodeImageBytes b), ⟨trivial, fun s' _ => execDecode_eq b s'⟩,
      fun _ => rfl⟩
  | txSend b =>
    exact .inr ⟨.transmit (writeUnit s.txKind b), .done, ⟨trivial, fun s' h => by rw [← h.txKind]; rfl⟩,
      fun h => by cases h⟩
  | rxPush c => exact hpush c
  | sof => exact hpush Config.marker
  | escFe => exact hpush [Config.esc, Config.esc]
  | lit x => exact hpush [x]
  | loneFe => exact hpush [Config.esc]
  | rxDrain =>
    exact (execRxDrain_decided s).imp id fun ⟨e, r, hcarry, hrx⟩ => ⟨e, r, hcarry, fun _ => hrx⟩
  | rxEos =>
    cases hk : s.rxKind with
    | datagram => exact .inl ⟨.wrongTransportKind, fun s' h => by simp [exec, execRxEos, h.rxKind, hk]⟩
    | stream =>
      exact .inr ⟨.endStream, .done,
        ⟨hk, fun s' h => by simp [exec, execRxEos, Effect.apply, h.rxKind, hk]⟩, fun _ => rfl⟩
  | rxDgram d =>
    cases hk : s.rxKind with
    | stream => exact .inl ⟨.wrongTransportKind, fun s' h => by simp [exec, execRxDgram, h.rxKind, hk]⟩
    | datagram =>
      exact .inr ⟨.deliver d, .done,
        ⟨hk, fun s' h => by simp [exec, execRxDgram, Effect.apply, h.rxKind, hk]⟩, fun _ => rfl⟩
  | rxAbort => exact .inr ⟨.emptyChannel, .done, ⟨trivial, fun _ _ => rfl⟩, fun _ => rfl⟩
  | _ => exact .inr ⟨.keep, _, ⟨trivial, fun _ _ => rfl⟩, fun _ => rfl⟩

/-- What an instruction that leads to a next state has done. -/
theorem exec_next_effect {i : Instr} {s t : State} (h : exec i s = .next t) :
    ∃ e r, CarriesOut (exec i) s e r ∧ (isRxCommand i = true → e.onRx = true) ∧
      t = (e.apply s).respond r := by
  rcases exec_decided i s with ⟨r, href⟩ | ⟨e, r, hcarry, hrx⟩
  · rw [href s (.refl s)] at h
    cases h
  · rw [hcarry.answers s (.refl s)] at h
    cases h
    exact ⟨e, r, hcarry, hrx, rfl⟩

/-- R20: a TX command is never refused, and of the state it reads `TX_KIND` alone. -/
theorem exec_txCommand {i : Instr} (h : isTxCommand i = true) (s : State) :
    ∃ (e : Effect) (r : Response), e.onTx = true ∧
      ∀ s', s'.txKind = s.txKind → exec i s' = .next ((e.apply s').respond r) := by
  cases i with
  | encode p => exact ⟨.releaseStaging, _, rfl, fun s' _ => execEncode_eq p s'⟩
  | frame b => exact ⟨.keep, _, rfl, fun _ _ => rfl⟩
  | txSend b => exact ⟨.transmit (writeUnit s.txKind b), .done, rfl, fun s' hk => by rw [← hk]; rfl⟩
  | _ => cases h

/-! ## What every effect leaves unchanged -/

section
variable (e : Effect) (s : State)

theorem Effect.apply_port : (e.apply s).port = s.port := by cases e <;> rfl
theorem Effect.apply_txKind : (e.apply s).txKind = s.txKind := by cases e <;> rfl
theorem Effect.apply_rxKind : (e.apply s).rxKind = s.rxKind := by cases e <;> rfl

/-- R29: no effect reads the last result. -/
theorem Effect.apply_respond (r : Option Response) (r' : Response) :
    (e.apply { s with response := r }).respond r' = (e.apply s).respond r' := by cases e <;> rfl

end

/-- R20: an effect on the TX unit and one on the RX unit can change places; the result port shows the later one's
result. -/
theorem Effect.apply_comm {e e' : Effect} (h : e.onTx = true) (h' : e'.onRx = true) (s : State)
    (r r' : Response) :
    (e'.apply ((e.apply s).respond r)).respond r' =
      { (e.apply ((e'.apply s).respond r')).respond r with response := some r' } := by
  cases e with
  | keep | releaseStaging | transmit =>
    cases e' with
    | releaseStaging | transmit => cases h'
    | _ => rfl
  | _ => cases h

/-- An instruction leaves the ports, and both fields of `CFG`. -/
theorem exec_next_frame {i : Instr} {s t : State} (h : exec i s = .next t) :
    t.port = s.port ∧ t.txKind = s.txKind ∧ t.rxKind = s.rxKind := by
  obtain ⟨e, r, -, -, rfl⟩ := exec_next_effect h
  exact ⟨e.apply_port s, e.apply_txKind s, e.apply_rxKind s⟩

/-! ## The logs -/

/-- The state with other logs. -/
def State.withLogs (s : State) (a : List Bytes) (b : List RxRecord) : State :=
  { s with txout := a, rxout := b }

/-- R30: what an effect appends to `TXOUT`. -/
def Effect.sent : Effect → List Bytes
  | .transmit unit => [unit]
  | .keep | .releaseStaging | .push _ | .takeFrame _ | .emptyChannel | .endStream | .deliver _ => []

/-- R30: what an effect appends to `RXOUT`. -/
def Effect.received : Effect → List RxRecord
  | .takeFrame d => [recordOf d.payload]
  | .deliver raw => [recordOf raw]
  | .keep | .releaseStaging | .transmit _ | .push _ | .emptyChannel | .endStream => []

section
variable (e : Effect) (s : State)

theorem Effect.sent_length : e.sent.length ≤ 1 := by cases e <;> simp [Effect.sent]
theorem Effect.received_length : e.received.length ≤ 1 := by cases e <;> simp [Effect.received]

/-- R30: an effect is the same on other logs, and appends the same entries to them. -/
theorem Effect.apply_withLogs (a : List Bytes) (b : List RxRecord) :
    e.apply (s.withLogs a b) = (e.apply s).withLogs (a ++ e.sent) (b ++ e.received) := by
  cases e <;> simp [Effect.apply, Effect.sent, Effect.received, recordOf, State.withLogs,
    State.releaseStaging, State.transmit, State.pushBytes, State.setRemainder, State.deliver,
    State.emptyChannel, State.endStream]

theorem Effect.apply_txout : (e.apply s).txout = s.txout ++ e.sent :=
  congrArg State.txout (e.apply_withLogs s s.txout s.rxout)
theorem Effect.apply_rxout : (e.apply s).rxout = s.rxout ++ e.received :=
  congrArg State.rxout (e.apply_withLogs s s.txout s.rxout)

end

/-! ## The invariant -/

/-- R31, R33: the state reset leaves has the invariant. -/
theorem State.resetWith_inv (tx rx : TransportKind) (cap : Option Nat) (port : List Beat) :
    (State.resetWith tx rx cap port).Inv :=
  ⟨rfl, rfl, (State.withinCapacity_iff _).2 fun _ _ => Nat.zero_le _, fun _ => ⟨rfl, rfl⟩⟩

/-- R161: bytes that fit are pushed within the capacity, and move the scan state with the buffer. -/
theorem State.pushBytes_inv {s : State} {c : Bytes} (hinv : s.Inv) (h : s.acceptsBytes c = true) :
    (s.pushBytes c).Inv := by
  obtain ⟨hstage, hserial, -, -⟩ := hinv
  obtain ⟨hk, -, hfits⟩ := (s.acceptsBytes_iff c).1 h
  refine ⟨hstage, ?serial, ?capacity, fun hd => ?datagram⟩
  case serial =>
    change (s.serial.run c).1 = Serial.ofBuffer (s.rxbuf ++ c)
    rw [Serial.ofBuffer_append, hserial]
  case capacity =>
    refine (State.withinCapacity_iff _).2 fun cap hcap => ?_
    change (s.rxbuf ++ c).length ≤ cap
    rw [List.length_append]
    exact (s.fits_iff c).1 hfits cap hcap
  case datagram => rw [State.pushBytes_rxKind, hk] at hd; cases hd

/-- R162: a drain that finds a frame leaves the scan state that the remainder gives: inside the frame whose
marker begins it, or, where nothing remains, at reset. -/
theorem State.setRemainder_serial_eq_ofBuffer {s : State} (hserial : s.serial = Serial.ofBuffer s.rxbuf)
    (hfound : (deframeBytes s.rxbuf s.rxEos).found = true) :
    (s.setRemainder (deframeBytes s.rxbuf s.rxEos).rest).serial
      = Serial.ofBuffer (deframeBytes s.rxbuf s.rxEos).rest := by
  rcases deframeBytes_cases s.rxbuf s.rxEos with
    ⟨hd, -⟩ | ⟨k, e, hk, he, hd⟩ | ⟨k, hk, hnext, -, hd⟩
  · rw [hd] at hfound
    cases hfound
  · obtain ⟨⟨r, hrest⟩, hsame⟩ := Serial.ofBuffer_of_next_marker s.rxbuf k e hk he
    have hne : s.rxbuf.drop e ≠ [] := by simp [hrest]
    simp only [hd, State.setRemainder, if_neg hne]
    rw [hserial, hsame]
  · simp only [hd, State.setRemainder, if_true]
    rw [hserial, Serial.eos_ofBuffer_of_no_next_marker s.rxbuf k hk hnext]
    rfl

/-- R135: what remains of a buffer is no longer than it. -/
theorem deframeBytes_rest_length (buf : Bytes) (eos : Bool) :
    (deframeBytes buf eos).rest.length ≤ buf.length := by
  rcases deframeBytes_cases buf eos with ⟨hd, -⟩ | ⟨k, e, -, -, hd⟩ | ⟨k, -, -, -, hd⟩ <;> simp [hd]

theorem State.setRemainder_inv {s : State} (hinv : s.Inv) (hk : s.rxKind = .stream)
    (hfound : (deframeBytes s.rxbuf s.rxEos).found = true) :
    (s.setRemainder (deframeBytes s.rxbuf s.rxEos).rest).Inv := by
  obtain ⟨hstage, hserial, hcap, -⟩ := hinv
  refine ⟨hstage, State.setRemainder_serial_eq_ofBuffer hserial hfound, ?capacity, fun hd => ?datagram⟩
  case capacity =>
    exact (State.withinCapacity_iff _).2 fun cap h =>
      (deframeBytes_rest_length s.rxbuf s.rxEos).trans (s.withinCapacity_iff.1 hcap cap h)
  case datagram => rw [State.setRemainder_rxKind, hk] at hd; cases hd

theorem State.emptyChannel_inv {s : State} (hinv : s.Inv) : s.emptyChannel.Inv := by
  obtain ⟨hstage, -, -, -⟩ := hinv
  exact ⟨hstage, rfl, (State.withinCapacity_iff _).2 fun _ _ => Nat.zero_le _, fun _ => ⟨rfl, rfl⟩⟩

theorem State.endStream_inv {s : State} (hinv : s.Inv) (hk : s.rxKind = .stream) : s.endStream.Inv := by
  obtain ⟨hstage, hserial, hcap, -⟩ := hinv
  exact ⟨hstage, hserial, hcap, fun hd => by rw [State.endStream_rxKind, hk] at hd; cases hd⟩

/-- Every effect keeps the invariant where it is granted. The logs, the result and the ports are no part of it,
so it carries over as it stands from a state that differs in these alone. -/
theorem Effect.apply_inv {e : Effect} {s : State} (hinv : s.Inv) (h : e.Granted s) : (e.apply s).Inv := by
  cases e with
  | keep => exact hinv
  | releaseStaging => exact ⟨rfl, hinv.2⟩
  | transmit unit => exact hinv
  | push c => exact State.pushBytes_inv hinv h
  | takeFrame d =>
    obtain ⟨hk, rfl, hfound⟩ := h
    exact State.setRemainder_inv hinv hk hfound
  | emptyChannel => exact State.emptyChannel_inv hinv
  | endStream => exact State.endStream_inv hinv h
  | deliver raw => exact hinv

/-- Every instruction keeps the invariant. -/
theorem exec_next_inv {i : Instr} {s t : State} (hinv : s.Inv) (h : exec i s = .next t) : t.Inv := by
  obtain ⟨e, r, hcarry, -, rfl⟩ := exec_next_effect h
  exact Effect.apply_inv hinv hcarry.granted

/-! ## The length of an image -/

/-- R101: a message takes at least its six fixed bytes. -/
theorem six_mul_length_le_messageBytes (ms : List DisplayMessage) :
    6 * ms.length ≤ (messageBytes ms).length := by
  induction ms with
  | nil => simp
  | cons m ms ih =>
    have hm : (encodeMessage m).length = 6 + m.text.length := by simp [encodeMessage]; omega
    simp only [messageBytes, List.flatMap_cons, List.length_append, List.length_cons, hm] at ih ⊢
    omega

/-- R100, R196: the codec answers an image only for a body that the PBC can count. -/
theorem packetBody_length_of_encodeImageBytes_ok {p : Packet} {e : Bytes}
    (h : encodeImageBytes p = .ok e) : (packetBody p).length ≤ 65535 := by
  unfold encodeImageBytes sealImage at h
  split at h
  · split at h
    · cases h
    · next hfit => exact Nat.le_of_not_lt hfit
  · cases h

/-! ## The statements -/

/-- Settles O9: a step waits, resets or runs an instruction, and each leaves the invariant. -/
theorem invariantIsKeptByEveryStep : Obligations.InvariantIsKeptByEveryStep := by
  intro s t hinv hstep
  rcases step_next s t hstep with rfl | ⟨tx, rx, rest, -, -, rfl⟩ | ⟨i, rest, u, -, hexec, rfl⟩
  · exact hinv
  · exact State.resetWith_inv tx rx s.rxbufCap rest
  · have hu : u.Inv := exec_next_inv hinv hexec
    exact hu

/-- Settles O13: 10922 messages would take 65532 bytes behind the four of the header. -/
theorem acceptedPacketsHaveAtMost10921Messages : Obligations.AcceptedPacketsHaveAtMost10921Messages := by
  intro p s t e hexec hresp
  have hnext : exec (.encode p) s = _ := execEncode_eq p s
  rw [hexec] at hnext
  cases hnext
  cases hok : encodeImageBytes p with
  | error k => rw [State.respond_response, hok] at hresp; cases hresp
  | ok image =>
    have hbody := packetBody_length_of_encodeImageBytes_ok hok
    have hmsgs := six_mul_length_le_messageBytes p.messages
    simp only [packetBody, List.length_append, List.length_cons, List.length_nil, le16_length] at hbody
    omega

/-- Settles O48: by the entries each effect appends, which are the same whatever the logs hold. -/
theorem logsOnlyGrowAndAreNeverRead : Obligations.LogsOnlyGrowAndAreNeverRead := by
  refine ⟨fun i s t h => ?grow, fun i s a b => ⟨fun r h => ?refused, fun t us rs h hus hrs => ?next⟩⟩
  case grow =>
    obtain ⟨e, r, -, -, rfl⟩ := exec_next_effect h
    exact ⟨⟨e.sent, e.apply_txout s, e.sent_length⟩, ⟨e.received, e.apply_rxout s, e.received_length⟩⟩
  case refused =>
    rcases exec_decided i s with ⟨r', href⟩ | ⟨e, r', hcarry, -⟩
    · rw [href s (.refl s)] at h
      cases h
      exact href _ ⟨rfl, rfl, rfl, rfl, rfl⟩
    · rw [hcarry.answers s (.refl s)] at h
      cases h
  case next =>
    obtain ⟨e, r, hcarry, -, rfl⟩ := exec_next_effect h
    obtain rfl : e.sent = us := List.append_cancel_left ((e.apply_txout s).symm.trans hus)
    obtain rfl : e.received = rs := List.append_cancel_left ((e.apply_rxout s).symm.trans hrs)
    have hnext := hcarry.answers (s.withLogs a b) ⟨rfl, rfl, rfl, rfl, rfl⟩
    rw [e.apply_withLogs s a b] at hnext
    exact hnext

/-- Settles O49: the TX command's effect leaves what decides the RX command, and the other way round, and the two
effects change places. -/
theorem txAndRxCommandsCommute : Obligations.TxAndRxCommandsCommute := by
  intro i j s t hi hj ht
  obtain ⟨e, r, htx, hexec⟩ := exec_txCommand hi s
  rw [hexec s rfl] at ht
  cases ht
  have hsame : s.SameControls ((e.apply s).respond r) := e.sameControls_of_onTx htx s r
  rcases exec_decided j s with ⟨r', href⟩ | ⟨e', r', hcarry, hrx⟩
  · have ht := href _ hsame
    exact ⟨fun r₀ h => (href s (.refl s)).trans (ht.symm.trans h), fun u h => by rw [ht] at h; cases h⟩
  · have ht := hcarry.answers _ hsame
    refine ⟨fun r₀ h => (by rw [ht] at h; cases h), fun u h => ?_⟩
    rw [ht] at h
    cases h
    exact ⟨_, _, hcarry.answers s (.refl s), hexec _ (e'.apply_txKind s),
      Effect.apply_comm htx (hrx hj) s r r', rfl, rfl⟩

/-- Settles O6: no effect touches the ports. -/
theorem instructionsLeaveThePorts : Obligations.InstructionsLeaveThePorts :=
  fun _ _ _ h => (exec_next_frame h).1

/-- Settles O8: by the four values of the two bits; by what a step without `rst` can be; and by the reading of an
`rst` that stands first. -/
theorem configurationChangesOnlyAtReset : Obligations.ConfigurationChangesOnlyAtReset := by
  refine ⟨fun s => ?read, fun s t hnone hstep => ?noReset, fun s tx rx rest hport => ?reset⟩
  case read =>
    unfold State.cfgRead
    cases s.txKind <;> cases s.rxKind <;> rfl
  case noReset =>
    rcases step_next s t hstep with rfl | ⟨tx, rx, rest, -, hsome, -⟩ | ⟨i, rest, u, -, hexec, rfl⟩
    · exact ⟨rfl, rfl⟩
    · rw [hnone] at hsome; cases hsome
    · obtain ⟨-, htx, hrx⟩ := exec_next_frame hexec
      exact ⟨htx, hrx⟩
  case reset =>
    have hstep : step s = .next (s.assertReset tx rx rest) :=
      step_of_decodePort_error s .abandoned tx rx rest (by rw [hport]; rfl) rfl (by rw [hport]; rfl)
    exact ⟨_, hstep, rfl, rfl⟩

/-- Settles O10: `State.reset` is one of the states that reset leaves. -/
theorem invariantHoldsAfterReset : Obligations.InvariantHoldsAfterReset :=
  ⟨State.resetWith_inv _ _ _ _, State.resetWith_inv⟩

/-- Settles O50: the last result is none of what decides, and no effect reads it. -/
theorem errorsLeaveNothingLatched : Obligations.ErrorsLeaveNothingLatched := by
  intro i s r
  have hsame : s.SameControls { s with response := r } := ⟨rfl, rfl, rfl, rfl, rfl⟩
  rcases exec_decided i s with ⟨r', href⟩ | ⟨e, r', hcarry, -⟩
  · rw [href _ hsame, href s (.refl s)]
  · rw [hcarry.answers _ hsame, hcarry.answers s (.refl s), e.apply_respond]

end Sys2Proof.Machine
end

section
/-! SUPPORT. An input longer than any PBC can say (R66). -/

namespace Sys2Proof.Machine

/-- R66: the PBC says at most 65535, and behind its field more bytes than that stand. -/
theorem decodeImageBytes_overlong (b : Bytes) (h : 65537 < b.length) :
    decodeImageBytes b = .error .lengthMismatch := by
  have hpbc : (rd16 b 0).toNat < 65536 := (rd16 b 0).isLt
  have hlong : ¬ b.length < Config.minPacket := by rw [Config.minPacket]; omega
  rw [decodeImageBytes, if_neg hlong, if_pos (by omega)]

/-- Settles O16: `DECODE` answers what the codec answers. -/
theorem overlongInputIsALengthMismatch : Obligations.OverlongInputIsALengthMismatch := by
  intro b s h
  have hexec : exec (.decode b) s = .next (s.respond (Response.ofDecode (decodeImageBytes b))) :=
    execDecode_eq b s
  rw [hexec, decodeImageBytes_overlong b h]
  rfl

end Sys2Proof.Machine
end

section
/-! SUPPORT. `DEFRAME` frame by frame: what it finds and how much it takes (R135, R138), what it answers on the
frame of a byte string (R143), and that its payloads are those of the byte-serial machine (R137). -/

namespace Sys2Proof.Machine

/-! ## What is found -/

/-- R135, R138: `DEFRAME` finds nothing where no marker stands, or where the stream goes on and no second marker
closes the frame of the first. -/
theorem deframeBytes_not_found_iff (buf : Bytes) (eos : Bool) :
    (deframeBytes buf eos).found = false ↔
      firstMarker buf = none ∨
        (eos = false ∧ ∃ k, firstMarker buf = some k ∧ ∀ e, boundary buf (k + 2) ≠ .marker e) := by
  unfold deframeBytes
  cases hf : firstMarker buf with
  | none => simp
  | some k => cases hb : boundary buf (k + 2) <;> cases eos <;> simp [hb]

/-! ## The frame of a byte string -/

/-- R132: un-stuffing undoes stuffing. -/
@[simp] theorem unstuff_stuff (a : Bytes) : unstuff (stuff a) = a := by
  induction a with
  | nil => rfl
  | cons x r ih =>
    by_cases hx : x = Config.esc
    · rw [hx, stuff_esc, unstuff_pair, ih]
    · rw [stuff_other x r hx, unstuff_other x _ hx, ih]

/-- R134: no marker stands on the tokens of a stuffed string, so the scan stops at the one behind it. -/
theorem boundaryFrom_stuff_append_marker (j : Nat) (a r : Bytes) :
    boundaryFrom j (stuff a ++ Config.esc :: Config.stx :: r) = .marker (j + (stuff a).length) := by
  induction a generalizing j with
  | nil => exact boundaryFrom_sof j r
  | cons x a ih =>
    by_cases hx : x = Config.esc
    · simp only [hx, stuff_esc, List.cons_append, boundaryFrom_pair, ih, List.length_cons]
      congr 1
      omega
    · simp only [stuff_other x a hx, List.cons_append, boundaryFrom_lit j x _ hx, ih, List.length_cons]
      congr 1
      omega

/-- R135, R143: a frame with a marker behind it is deframed to its byte string, whether or not the stream has
ended. -/
theorem deframeBytes_frameBytes_append_marker (a r : Bytes) (eos : Bool) :
    deframeBytes (frameBytes a ++ Config.esc :: Config.stx :: r) eos
      = ⟨a, Config.esc :: Config.stx :: r, true⟩ := by
  have hframe : frameBytes a ++ Config.esc :: Config.stx :: r
      = Config.esc :: Config.stx :: (stuff a ++ Config.esc :: Config.stx :: r) := rfl
  have hscan : boundary (Config.esc :: Config.stx :: (stuff a ++ Config.esc :: Config.stx :: r)) (0 + 2)
      = .marker (2 + (stuff a).length) := boundaryFrom_stuff_append_marker 2 a r
  rw [hframe, deframeBytes, firstMarker_marker]
  simp only [hscan]
  simp [Nat.add_comm 2]

/-! ## The payloads of the byte-serial machine -/

/-- R133, R137: with no marker in the buffer the machine emits nothing, nor does the end of the stream. -/
theorem Serial.run_of_no_firstMarker (buf : Bytes) (h : firstMarker buf = none) :
    (Serial.reset.run buf).2 = [] ∧ (Serial.reset.run buf).1.eos.2 = none := by
  rw [Serial.reset, Serial.run_hunt0_of_no_marker [] buf h]
  refine ⟨rfl, ?_⟩
  split <;> rfl

/-- R133, R137: a first marker takes two bytes of the buffer, and the machine reads what stands behind it as the
body of a frame. -/
theorem Serial.run_of_firstMarker (buf : Bytes) (k : Nat) (h : firstMarker buf = some k) :
    k + 2 ≤ buf.length ∧ Serial.reset.run buf = Serial.run ⟨.body0, []⟩ (buf.drop (k + 2)) := by
  obtain ⟨pre, r, rfl, rfl, hrun⟩ := Serial.run_hunt0_of_marker [] buf k h
  exact ⟨by simp, by rw [drop_behind_marker, Serial.reset, hrun]⟩

/-- R134, R137: the machine emits the body before a next marker, un-stuffed, and goes on as it would from reset
over the buffer that begins with that marker. -/
theorem Serial.run_of_next_marker (buf : Bytes) (k e : Nat) (hk : firstMarker buf = some k)
    (he : boundary buf (k + 2) = .marker e) :
    k + 2 ≤ e ∧ e ≤ buf.length ∧
      (Serial.reset.run buf).1 = (Serial.reset.run (buf.drop e)).1 ∧
      (Serial.reset.run buf).2
        = unstuff ((buf.take e).drop (k + 2)) :: (Serial.reset.run (buf.drop e)).2 := by
  obtain ⟨hlen, hrun⟩ := Serial.run_of_firstMarker buf k hk
  obtain ⟨body, r, hbody, rfl, hrest⟩ := Serial.run_body0_of_marker (k + 2) e [] (buf.drop (k + 2)) he
  have hpayload : (buf.take (k + 2 + body.length)).drop (k + 2) = body := by
    rw [List.drop_take, hbody]
    simp
  have hdrop : buf.drop (k + 2 + body.length) = Config.esc :: Config.stx :: r := by
    rw [← List.drop_drop, hbody, List.drop_left]
  have hfits : body.length ≤ (buf.drop (k + 2)).length := by simp [hbody]
  rw [List.length_drop] at hfits
  refine ⟨by omega, by omega, ?_, ?_⟩ <;> rw [hrun, hrest, hdrop]
  · rfl
  · rw [hpayload]
    rfl

/-- R134, R137: with no further marker the machine emits nothing, and the end of the stream emits all of the
body, un-stuffed; a pending `FE` counts as a byte. -/
theorem Serial.run_body0_of_no_marker (j : Nat) (acc b : Bytes) (h : ∀ e, boundaryFrom j b ≠ .marker e) :
    (Serial.run ⟨.body0, acc⟩ b).2 = [] ∧
      (Serial.run ⟨.body0, acc⟩ b).1.eos.2 = some (acc ++ unstuff b) := by
  induction b using token_induction generalizing j acc with
  | nil => simp [Serial.run, Serial.eos]
  | pending => simp [Serial.run, Serial.byte, Serial.eos, unstuff]
  | lit x r hx ih =>
    rw [boundaryFrom_lit j x r hx] at h
    rw [Serial.run_body0_lit acc x r hx, unstuff_other x r hx,
      List.append_cons acc x (unstuff r)]
    exact ih _ (acc ++ [x]) h
  | pair r ih =>
    rw [boundaryFrom_pair] at h
    rw [Serial.run_body0_pair, unstuff_pair, List.append_cons acc Config.esc (unstuff r)]
    exact ih _ (acc ++ [Config.esc]) h
  | sof r => exact absurd (boundaryFrom_sof j r) (h j)
  | lone y r he hs ih =>
    rw [boundaryFrom_lone j y r he hs] at h
    rw [Serial.run_body0_lone acc y r he hs, unstuff_lone y r he,
      List.append_cons acc Config.esc (unstuff (y :: r))]
    exact ih _ (acc ++ [Config.esc]) h

/-- R137, R162: the payloads that stand in a buffer to be drained: those the byte-serial machine emits over it,
and the one its `eos` emits when the stream has ended. -/
def duePayloads (buf : Bytes) (eos : Bool) : List Bytes :=
  if eos then streamPayloads buf else (Serial.reset.run buf).2

/-- R135, R137: where `DEFRAME` finds nothing, no payload is due. -/
theorem duePayloads_of_not_found (buf : Bytes) (eos : Bool) (h : (deframeBytes buf eos).found = false) :
    duePayloads buf eos = [] := by
  rcases (deframeBytes_not_found_iff buf eos).1 h with hnone | ⟨rfl, k, hk, hopen⟩
  · obtain ⟨hemitted, heos⟩ := Serial.run_of_no_firstMarker buf hnone
    simp [duePayloads, streamPayloads, hemitted, heos]
  · obtain ⟨-, hrun⟩ := Serial.run_of_firstMarker buf k hk
    rw [duePayloads, hrun]
    exact (Serial.run_body0_of_no_marker (k + 2) [] _ hopen).1

/-- R135, R137: where `DEFRAME` finds a frame, its payload is the first that is due, and the remainder holds the
others. -/
theorem duePayloads_of_found (buf : Bytes) (eos : Bool) (h : (deframeBytes buf eos).found = true) :
    duePayloads buf eos
      = (deframeBytes buf eos).payload :: duePayloads (deframeBytes buf eos).rest eos := by
  rcases deframeBytes_cases buf eos with ⟨hd, -⟩ | ⟨k, e, hk, he, hd⟩ | ⟨k, hk, hopen, rfl, hd⟩
  · rw [hd] at h
    cases h
  · obtain ⟨-, -, hstate, hemitted⟩ := Serial.run_of_next_marker buf k e hk he
    cases eos <;> simp [duePayloads, streamPayloads, hd, hstate, hemitted]
  · obtain ⟨-, hrun⟩ := Serial.run_of_firstMarker buf k hk
    obtain ⟨hemitted, heos⟩ := Serial.run_body0_of_no_marker (k + 2) [] _ hopen
    rw [hd]
    simp only [duePayloads, if_true, streamPayloads, hrun, hemitted, heos]
    rfl

/-- R135, R166: a frame that is found takes its marker, at least, from the buffer. -/
theorem deframeBytes_rest_length_of_found (buf : Bytes) (eos : Bool)
    (h : (deframeBytes buf eos).found = true) :
    (deframeBytes buf eos).rest.length + 2 ≤ buf.length := by
  rcases deframeBytes_cases buf eos with ⟨hd, -⟩ | ⟨k, e, hk, he, hd⟩ | ⟨k, hk, -, -, hd⟩
  · rw [hd] at h
    cases h
  · obtain ⟨hke, hlen, -, -⟩ := Serial.run_of_next_marker buf k e hk he
    simp only [hd, List.length_drop]
    omega
  · obtain ⟨hlen, -⟩ := Serial.run_of_firstMarker buf k hk
    simp only [hd, List.length_nil]
    omega

end Sys2Proof.Machine
end

section
/-! SUPPORT. `RX_DRAIN`, once and repeated until it finds nothing, and the feed that ends in these drains (R85,
R162, R166, R168). -/

namespace Sys2Proof.Machine

/-! ## One drain -/

/-- R168: in datagram mode a drain is refused. -/
theorem execRxDrain_datagram (s : State) (h : s.rxKind = .datagram) :
    execRxDrain s = .refused .wrongTransportKind := by
  simp [execRxDrain, h]

/-- R162: in stream mode a drain takes the frame that `DEFRAME` finds. -/
theorem execRxDrain_found (s : State) (d : Deframed) (hk : s.rxKind = .stream)
    (hd : deframeBytes s.rxbuf s.rxEos = d) (hfound : d.found = true) :
    execRxDrain s = .next (((s.setRemainder d.rest).deliver d.payload).respond (.found true)) := by
  simp [execRxDrain, hk, hd, hfound]

/-- R162: a drain that answers `found` has taken what `DEFRAME` found. -/
theorem execRxDrain_next_found (s t : State) (h : execRxDrain s = .next t)
    (hr : t.response = some (.found true)) :
    (deframeBytes s.rxbuf s.rxEos).found = true ∧ t.rxbuf = (deframeBytes s.rxbuf s.rxEos).rest := by
  obtain ⟨-, ⟨hfound, rfl⟩ | ⟨-, -, rfl⟩ | ⟨-, -, rfl⟩⟩ := execRxDrain_next s t h
  · exact ⟨hfound, rfl⟩
  · cases hr
  · cases hr

/-- R135, R162: a drain delivers a frame with a marker behind it, and the buffer then begins at that marker. -/
theorem execRxDrain_frame (a r : Bytes) (s : State) (hk : s.rxKind = .stream)
    (hbuf : s.rxbuf = frameBytes a ++ Config.esc :: Config.stx :: r) :
    ∃ t, execRxDrain s = .next t ∧ t.rxKind = .stream ∧ t.rxbuf = Config.esc :: Config.stx :: r ∧
      t.rxout = s.rxout ++ [recordOf a] := by
  have hd := deframeBytes_frameBytes_append_marker a r s.rxEos
  rw [← hbuf] at hd
  exact ⟨_, execRxDrain_found s _ hk hd rfl, hk, rfl, rfl⟩

/-! ## The drains until nothing is found -/

section
variable {s t : State} (n : Nat)

/-- R166: a drain that found a frame is followed by the others. -/
theorem drainUntilNotFound_of_found (h : execRxDrain s = .next t) (hr : t.response = some (.found true)) :
    drainUntilNotFound (n + 1) s = drainUntilNotFound n t := by
  rw [drainUntilNotFound, h]
  exact if_pos hr

/-- R166: a drain that found nothing is the last. -/
theorem drainUntilNotFound_of_not_found (h : execRxDrain s = .next t)
    (hr : t.response = some (.found false)) : drainUntilNotFound (n + 1) s = .next t := by
  rw [drainUntilNotFound, h]
  exact if_neg (by simp [hr])

/-- R168: when the first drain is refused, so is the repetition. -/
theorem drainUntilNotFound_of_refused {r : Refusal} (h : execRxDrain s = .refused r) :
    drainUntilNotFound (n + 1) s = .refused r := by
  rw [drainUntilNotFound, h]

end

/-- R162, R166: the state the drains leave: what is due is delivered, and the stream stands open with `rest` in
the buffer. -/
def State.drained (s : State) (rest : Bytes) (serial : Serial) : State :=
  { s with
    rxbuf := rest, rxEos := false, serial := serial
    rxout := s.rxout ++ (duePayloads s.rxbuf s.rxEos).map recordOf
    response := some (.found false) }

/-- R162: what the drains leave behind a first frame, they leave behind all of the buffer. -/
theorem State.drained_of_found (s : State) {d : Deframed} (hd : deframeBytes s.rxbuf s.rxEos = d)
    (hfound : d.found = true) (rest : Bytes) (serial : Serial) :
    (((s.setRemainder d.rest).deliver d.payload).respond (.found true)).drained rest serial
      = s.drained rest serial := by
  have hdue : duePayloads s.rxbuf s.rxEos = d.payload :: duePayloads d.rest s.rxEos :=
    hd ▸ duePayloads_of_found s.rxbuf s.rxEos (hd ▸ hfound)
  simp [State.drained, State.respond, State.deliver, State.setRemainder, hdue, recordOf]

/-- R162: where nothing is found, nothing is due. -/
theorem State.drained_of_not_found (s : State) (h : (deframeBytes s.rxbuf s.rxEos).found = false)
    (rest : Bytes) (serial : Serial) :
    s.drained rest serial = { s with
      rxbuf := rest, rxEos := false, serial := serial, response := some (.found false) } := by
  simp [State.drained, duePayloads_of_not_found s.rxbuf s.rxEos h]

/-- R162, R166: in stream mode the drains deliver every payload that is due; then the buffer holds no frame that
`DEFRAME` would find, and after the end of the stream the channel is as reset leaves it. -/
theorem drainUntilNotFound_delivers (n : Nat) (s : State) (hk : s.rxKind = .stream)
    (hn : s.rxbuf.length < n) :
    ∃ rest serial, drainUntilNotFound n s = .next (s.drained rest serial) ∧
      (deframeBytes rest false).found = false ∧
      (s.rxEos = true → rest = [] ∧ serial = Serial.reset) := by
  induction n generalizing s with
  | zero => exact absurd hn (Nat.not_lt_zero _)
  | succ n ih =>
    obtain ⟨t, ht, hkt⟩ := execRxDrain_stream s hk
    obtain ⟨-, ⟨hfound, rfl⟩ | ⟨hnot, heos, rfl⟩ | ⟨hnot, heos, rfl⟩⟩ := execRxDrain_next s t ht
    · have htaken := deframeBytes_rest_length_of_found s.rxbuf s.rxEos hfound
      have hlen : (deframeBytes s.rxbuf s.rxEos).rest.length < n := by omega
      obtain ⟨rest, serial, hdrain, hrest, hclosed⟩ := ih _ hkt hlen
      rw [s.drained_of_found rfl hfound] at hdrain
      exact ⟨rest, serial, (drainUntilNotFound_of_found n ht rfl).trans hdrain, hrest, hclosed⟩
    · refine ⟨[], Serial.reset, (drainUntilNotFound_of_not_found n ht rfl).trans ?_, rfl, fun _ => ⟨rfl, rfl⟩⟩
      rw [s.drained_of_not_found hnot]
      rfl
    · refine ⟨s.rxbuf, s.serial, (drainUntilNotFound_of_not_found n ht rfl).trans ?_, heos ▸ hnot,
        fun h => absurd (h.symm.trans heos) nofun⟩
      rw [s.drained_of_not_found hnot, ← heos]
      rfl

/-- R166: the drains of a feed or a close suffice for the whole buffer. -/
theorem State.drainAll_delivers (s : State) (hk : s.rxKind = .stream) :
    ∃ rest serial, s.drainAll = .next (s.drained rest serial) ∧
      (deframeBytes rest false).found = false ∧
      (s.rxEos = true → rest = [] ∧ serial = Serial.reset) :=
  drainUntilNotFound_delivers _ s hk (Nat.lt_succ_self _)

/-- R61, R161: a push leaves the transport kind, accepted or refused. -/
theorem State.after_execRxPush_rxKind (s : State) (c : Bytes) :
    (s.after (execRxPush c s)).rxKind = s.rxKind := by
  cases h : execRxPush c s with
  | next t =>
    obtain ⟨-, -, hkind⟩ := exec_next_frame (i := .rxPush c) h
    exact hkind
  | fault f => cases f
  | refused r => rfl

/-! ## The statements -/

/-- Settles O44: a found frame takes its marker from the buffer, so the drains reach the end of what is due,
where `DEFRAME` finds nothing. -/
theorem rxFeedDrainsUntilNotFound : Obligations.RxFeedDrainsUntilNotFound := by
  refine ⟨fun s t hdrain hr => ?takes, fun c s hk => ?ends,
    fun c s => ⟨fun t => rxFeed_accepted c s t, fun r => rxFeed_refused c s r⟩⟩
  case takes =>
    obtain ⟨hfound, hrest⟩ := execRxDrain_next_found s t hdrain hr
    rw [hrest]
    exact deframeBytes_rest_length_of_found s.rxbuf s.rxEos hfound
  case ends =>
    obtain ⟨rest, serial, hfeed, hnot, -⟩ :=
      (s.after (execRxPush c s)).drainAll_delivers ((s.after_execRxPush_rxKind c).trans hk)
    refine ⟨_, hfeed, hnot, ?_⟩
    exact ((deframeBytes_not_found_iff rest false).1 hnot).imp_right fun ⟨_, hopen⟩ => hopen

/-- Settles O47: the marker of the second frame closes the first, the marker behind closes the second, and
neither payload's decoding is asked for. -/
theorem badFramesDoNotBlockLaterOnes : Obligations.BadFramesDoNotBlockLaterOnes := by
  intro a b r s hk hbuf
  have hfirst : s.rxbuf = frameBytes a ++
      Config.esc :: Config.stx :: (stuff b ++ Config.esc :: Config.stx :: r) := by
    rw [hbuf, List.append_assoc]
    rfl
  obtain ⟨t, hdrain, hkt, hbuft, hout⟩ := execRxDrain_frame a _ s hk hfirst
  obtain ⟨u, hdrain', -, hbufu, hout'⟩ := execRxDrain_frame b r t hkt hbuft
  refine ⟨t, u, hdrain, hdrain', hout, ?_, hbufu⟩
  rw [hout', hout, List.append_assoc]
  rfl

/-- Settles O57: a refused push contributes nothing, so the feed is the drains of the buffer as it stands. -/
theorem feedWithARefusedPushStillDrains : Obligations.FeedWithARefusedPushStillDrains := by
  intro c s hrefused
  obtain ⟨r, hpush⟩ := receiveBytes_refused c s hrefused
  rw [rxFeed_refused c s r hpush]
  refine ⟨fun hk heos => ?ended, fun hk heos => ?goesOn, fun hk => ?datagram⟩
  case ended =>
    obtain ⟨rest, serial, hdrain, -, hclosed⟩ := s.drainAll_delivers hk
    obtain ⟨rfl, -⟩ := hclosed heos
    exact ⟨_, hdrain, rfl, rfl, by simp [State.drained, duePayloads, heos]⟩
  case goesOn =>
    obtain ⟨rest, serial, hdrain, -, -⟩ := s.drainAll_delivers hk
    exact ⟨_, hdrain, rfl, by simp [State.drained, duePayloads, heos]⟩
  case datagram => exact drainUntilNotFound_of_refused _ (execRxDrain_datagram s hk)

end Sys2Proof.Machine
end

section
/-! SUPPORT. `FRAME`, and a start marker that arrives behind a frame in progress (R77, R131, R134, R135). -/

namespace Sys2Proof.Machine

/-- R130: stuffing byte by byte. -/
theorem stuff_eq_flatMap (b : Bytes) :
    stuff b = b.flatMap fun x => if x = Config.esc then [Config.esc, Config.esc] else [x] := by
  induction b with
  | nil => rfl
  | cons x r ih => rw [stuff, ih, List.flatMap_cons]

/-- R77: every `FE` adds a byte. -/
theorem stuff_length (b : Bytes) : (stuff b).length = b.length + b.count Config.esc := by
  induction b with
  | nil => rfl
  | cons x r ih =>
    by_cases hx : x = Config.esc
    · simp only [hx, stuff_esc, List.length_cons, List.count_cons_self, ih]
      omega
    · simp only [stuff_other x r hx, List.length_cons, List.count_cons_of_ne hx, ih]
      omega

/-- R133: bytes behind a first marker do not move it. -/
theorem firstMarker_append_of_some (b c : Bytes) (k : Nat) (h : firstMarker b = some k) :
    firstMarker (b ++ c) = some k := by
  induction b using firstMarker.induct generalizing k with
  | case1 => cases h
  | case2 x => cases h
  | case3 x y r hm =>
    rw [firstMarker, if_pos hm] at h
    rw [List.cons_append, List.cons_append, firstMarker, if_pos hm, h]
  | case4 x y r hm ih =>
    rw [firstMarker_pass x y r hm, Option.map_eq_some_iff] at h
    obtain ⟨k', hk', rfl⟩ := h
    rw [List.cons_append, List.cons_append, firstMarker_pass x y _ hm, ← List.cons_append, ih k' hk',
      Option.map_some]

/-- R134: where the scan runs out on a token boundary, a marker that follows is the one it finds. -/
theorem boundaryFrom_append_marker_of_atEnd (j n : Nat) (b r : Bytes) (h : boundaryFrom j b = .atEnd n) :
    boundaryFrom j (b ++ Config.esc :: Config.stx :: r) = .marker (j + b.length) := by
  induction b using token_induction generalizing j with
  | nil => exact boundaryFrom_sof j r
  | pending => cases h
  | lit x b hx ih =>
    rw [boundaryFrom_lit j x b hx] at h
    rw [List.cons_append, boundaryFrom_lit j x _ hx, ih _ h, List.length_cons]
    congr 1
    omega
  | pair b ih =>
    rw [boundaryFrom_pair] at h
    rw [List.cons_append, List.cons_append, boundaryFrom_pair, ih _ h, List.length_cons, List.length_cons]
    congr 1
    omega
  | sof b => rw [boundaryFrom_sof] at h; cases h
  | lone y b he hs ih =>
    rw [boundaryFrom_lone j y b he hs] at h
    rw [List.cons_append, List.cons_append, boundaryFrom_lone j y _ he hs, ← List.cons_append, ih _ h,
      List.length_cons (a := Config.esc)]
    congr 1
    omega

/-- R134, R135: a marker that arrives behind a frame in progress on a token boundary ends it: the frame's body is
the payload, and the marker remains. -/
theorem deframeBytes_append_marker_of_atEnd (buf r : Bytes) (eos : Bool) (k n : Nat)
    (hk : firstMarker buf = some k) (hn : boundary buf (k + 2) = .atEnd n) :
    deframeBytes (buf ++ Config.esc :: Config.stx :: r) eos
      = ⟨unstuff (buf.drop (k + 2)), Config.esc :: Config.stx :: r, true⟩ := by
  obtain ⟨hlen, -⟩ := Serial.run_of_firstMarker buf k hk
  have hscan : boundary (buf ++ Config.esc :: Config.stx :: r) (k + 2) = .marker buf.length := by
    rw [boundary, List.drop_append_of_le_length hlen, boundaryFrom_append_marker_of_atEnd _ n _ r hn,
      List.length_drop, Nat.add_sub_cancel' hlen]
  rw [deframeBytes, firstMarker_append_of_some buf _ k hk]
  simp only [hscan, List.take_left, List.drop_left]

/-- R137: a de-framer on a token boundary inside a frame, with no whole frame in the buffer, has un-stuffed all
that stands behind the buffer's one marker. -/
theorem exists_open_frame_of_body0 (buf : Bytes) (hopen : (deframeBytes buf false).found = false)
    (hscan : (Serial.ofBuffer buf).scan = .body0) :
    ∃ k n, firstMarker buf = some k ∧ boundary buf (k + 2) = .atEnd n ∧
      (Serial.ofBuffer buf).acc = unstuff (buf.drop (k + 2)) := by
  rcases (deframeBytes_not_found_iff buf false).1 hopen with hnone | ⟨-, k, hk, hnext⟩
  · rw [Serial.ofBuffer_of_no_marker buf hnone] at hscan
    split at hscan <;> cases hscan
  · cases hb : boundary buf (k + 2) with
    | marker e => exact absurd hb (hnext e)
    | pending e => rw [Serial.ofBuffer_of_pending buf k e hk hb] at hscan; cases hscan
    | atEnd n => exact ⟨k, n, hk, hb, by rw [Serial.ofBuffer_of_atEnd buf k n hk hb]⟩

/-! ## The statements -/

/-- Settles O23: the stuffed image is the byte-wise copy, one byte longer for every `FE`. -/
theorem frameStuffsBehindTheMarker : Obligations.FrameStuffsBehindTheMarker := by
  intro b s
  have hlength : (frameBytes b).length = 2 + b.length + b.count Config.esc := by
    rw [frameBytes, List.length_append, stuff_length, Nat.add_assoc]
    rfl
  exact ⟨frameBytes b, rfl, congrArg (Config.marker ++ ·) (stuff_eq_flatMap b), hlength⟩

/-- Settles O56: the frame in progress is all that stands behind the buffer's marker, and the marker that
arrives bounds it. -/
theorem startMarkerClosesTheFrameInProgress : Obligations.StartMarkerClosesTheFrameInProgress := by
  intro s t hinv hopen hscan hsof
  obtain ⟨-, hserial, -, -⟩ := hinv
  rw [hserial] at hscan ⊢
  obtain ⟨k, n, hk, hn, hacc⟩ := exists_open_frame_of_body0 s.rxbuf hopen hscan
  obtain ⟨haccepted, rfl⟩ := receiveBytes_next Config.marker s t hsof
  obtain ⟨hkind, -, -⟩ := (s.acceptsBytes_iff Config.marker).1 haccepted
  have hframe := deframeBytes_append_marker_of_atEnd s.rxbuf [] s.rxEos k n hk hn
  rw [hacc]
  exact ⟨_, execRxDrain_found _ _ hkind hframe rfl, rfl, rfl, rfl⟩

end Sys2Proof.Machine
end

section
/-! SUPPORT. Which instructions are accepted, what the wire layouts answer, and what the stream tokens do (R71 to
R78, R137, R161, R168). -/

namespace Sys2Proof.Machine

/-! ## Acceptance -/

/-- R161, R168: an instruction that is accepted leads to a next state. -/
theorem exec_next_of_accepts (s : State) (i : Instr) (h : s.accepts i = true) :
    ∃ t, exec i s = .next t := by
  cases i with
  | reserved0 => cases h
  | rxPush c => exact ⟨_, receiveBytes_accepted c s h⟩
  | sof => exact ⟨_, receiveBytes_accepted Config.marker s h⟩
  | escFe => exact ⟨_, receiveBytes_accepted [Config.esc, Config.esc] s h⟩
  | lit x => exact ⟨_, receiveBytes_accepted [x] s h⟩
  | loneFe => exact ⟨_, receiveBytes_accepted [Config.esc] s h⟩
  | rxDrain =>
    obtain ⟨t, ht, -⟩ := execRxDrain_stream s (by simpa [State.accepts] using h)
    exact ⟨t, ht⟩
  | rxEos =>
    have hk : s.rxKind = .stream := by simpa [State.accepts] using h
    exact ⟨s.endStream.respond .done, by simp [exec, execRxEos, hk]⟩
  | rxDgram d =>
    have hk : s.rxKind = .datagram := by simpa [State.accepts] using h
    exact ⟨(s.deliver d).respond .done, by simp [exec, execRxDgram, hk]⟩
  | encode p => exact ⟨_, execEncode_eq p s⟩
  | decode b => exact ⟨_, execDecode_eq b s⟩
  | frame | deframe | txSend | rxAbort | brightness | leftTally | textTally | rightTally | isControlData
  | packetFixed | messageFixed | controlWord | flags => exact ⟨_, rfl⟩

/-- R168: acceptance is exactly what leads to a next state. -/
theorem exec_next_iff_accepts (s : State) (i : Instr) :
    (∃ t, exec i s = .next t) ↔ s.accepts i = true := by
  refine ⟨fun ⟨t, ht⟩ => ?_, exec_next_of_accepts s i⟩
  by_contra hnot
  obtain ⟨r, hr⟩ := exec_refused_of_not_accepts s i (Bool.eq_false_of_not_eq_true hnot)
  rw [hr] at ht
  cases ht

/-- R168: a pure command answers the same in every state, and does nothing else. -/
theorem exec_pureCommand {i : Instr} (h : isPureCommand i = true) :
    ∃ r, ∀ s, exec i s = .next (s.respond r) := by
  cases i with
  | decode b => exact ⟨_, execDecode_eq b⟩
  | frame | deframe | brightness | leftTally | textTally | rightTally | isControlData =>
    exact ⟨_, fun _ => rfl⟩
  | _ => cases h

/-! ## Bit fields as arithmetic -/

/-- R75, R76: the bits of a word from a position on are a quotient. -/
theorem extractLsb'_eq_ofNat_div {w : Nat} (x : BitVec w) (start len : Nat) :
    x.extractLsb' start len = BitVec.ofNat len (x.toNat / 2 ^ start) := by
  rw [BitVec.extractLsb', Nat.shiftRight_eq_div_pow]

/-- R75, R76: a field between two positions is a remainder of that quotient. -/
theorem extractLsb'_eq_ofNat_div_mod {w : Nat} (x : BitVec w) (start len : Nat) :
    x.extractLsb' start len = BitVec.ofNat len (x.toNat / 2 ^ start % 2 ^ len) := by
  rw [extractLsb'_eq_ofNat_div]
  apply BitVec.eq_of_toNat_eq
  rw [BitVec.toNat_ofNat, BitVec.toNat_ofNat, Nat.mod_mod]

/-- R75: the fields of a control word as arithmetic of the word. -/
theorem Response.ofControlWord_eq (cw : Half) :
    Response.ofControlWord cw = .controlFields (BitVec.ofNat 1 (cw.toNat / 32768))
      (BitVec.ofNat 7 (cw.toNat / 256 % 128)) (BitVec.ofNat 2 (cw.toNat / 64 % 4))
      (BitVec.ofNat 2 (cw.toNat / 16 % 4)) (BitVec.ofNat 2 (cw.toNat / 4 % 4))
      (BitVec.ofNat 2 (cw.toNat % 4)) := by
  have hdata : controlDataBit cw = BitVec.ofNat 1 (cw.toNat / 32768) := extractLsb'_eq_ofNat_div cw 15 1
  have hunnamed : controlUnnamed cw = BitVec.ofNat 7 (cw.toNat / 256 % 128) :=
    extractLsb'_eq_ofNat_div_mod cw 8 7
  have hbrightness : brightnessField cw = BitVec.ofNat 2 (cw.toNat / 64 % 4) :=
    extractLsb'_eq_ofNat_div_mod cw 6 2
  have hleft : leftField cw = BitVec.ofNat 2 (cw.toNat / 16 % 4) := extractLsb'_eq_ofNat_div_mod cw 4 2
  have htext : textField cw = BitVec.ofNat 2 (cw.toNat / 4 % 4) := extractLsb'_eq_ofNat_div_mod cw 2 2
  have hright : rightField cw = BitVec.ofNat 2 (cw.toNat % 4) := by
    rw [rightField, extractLsb'_eq_ofNat_div_mod, pow_zero, Nat.div_one]
    rfl
  rw [Response.ofControlWord, hdata, hunnamed, hbrightness, hleft, htext, hright]

/-- R76: the fields of the flags byte as arithmetic of the byte. -/
theorem Response.ofFlags_eq (f : Byte) :
    Response.ofFlags f
      = .flagsFields (BitVec.ofNat 7 (f.toNat / 2)) (BitVec.ofNat 1 (f.toNat % 2)) := by
  have hunnamed : flagsUnnamed f = BitVec.ofNat 7 (f.toNat / 2) := extractLsb'_eq_ofNat_div f 1 7
  have hencoding : textEncodingBit f = BitVec.ofNat 1 (f.toNat % 2) := by
    rw [textEncodingBit, extractLsb'_eq_ofNat_div_mod, pow_zero, Nat.div_one]
    rfl
  rw [Response.ofFlags, hunnamed, hencoding]

/-! ## Bytes that reach the RX unit -/

section
variable (c : Bytes) (s : State)

/-- R168: in datagram mode no byte of a stream is accepted. -/
theorem receiveBytes_datagram (hk : s.rxKind = .datagram) :
    receiveBytes c s = .refused .wrongTransportKind := by
  rw [receiveBytes, if_pos hk]

/-- R161: after the end of the stream no byte is accepted. -/
theorem receiveBytes_streamEnded (hk : s.rxKind = .stream) (he : s.rxEos = true) :
    receiveBytes c s = .refused .streamEnded := by
  rw [receiveBytes, if_neg (by simp [hk]), if_pos he]

/-- R161: bytes for which there is no room are not accepted. -/
theorem receiveBytes_bufferFull (hk : s.rxKind = .stream) (he : s.rxEos = false) {cap : Nat}
    (hcap : s.rxbufCap = some cap) (hfull : cap < s.rxbuf.length + c.length) :
    receiveBytes c s = .refused .bufferFull := by
  have hfits : s.fits c ≠ true := fun h => absurd ((s.fits_iff c).1 h cap hcap) (Nat.not_le.2 hfull)
  rw [receiveBytes, if_neg (by simp [hk]), if_neg (by simp [he]), if_neg hfits]

end

/-- R78: the bytes of a stream token; no other instruction is one. -/
def tokenBytes : Instr → Option Bytes
  | .sof => some Config.marker
  | .escFe => some [Config.esc, Config.esc]
  | .lit x => some [x]
  | .loneFe => some [Config.esc]
  | _ => none

/-- R78, R161: a token reaches the RX unit as its bytes. -/
theorem exec_token {i : Instr} {c : Bytes} (h : tokenBytes i = some c) (s : State) :
    exec i s = receiveBytes c s := by
  cases i with
  | sof | escFe | lit | loneFe => cases h; rfl
  | _ => cases h

/-- R137: a token that is accepted moves the scan state over its bytes. -/
theorem exec_token_next_serial {i : Instr} {c : Bytes} {s t : State} (htoken : tokenBytes i = some c)
    (h : exec i s = .next t) : t.serial = (s.serial.run c).1 := by
  rw [exec_token htoken] at h
  obtain ⟨-, rfl⟩ := receiveBytes_next c s t h
  rfl

/-- R137: an `FE` on a token boundary is held until its follower arrives. -/
theorem Serial.run_body0_esc (acc : Bytes) :
    Serial.run ⟨.body0, acc⟩ [Config.esc] = (⟨.body1, acc⟩, []) := by
  simp [Serial.run, Serial.byte]

/-- R137, R140: a follower that makes the held `FE` a lone one is read as the next token. -/
theorem Serial.run_body1_other (acc : Bytes) (y : Byte) (he : y ≠ Config.esc) (hs : y ≠ Config.stx) :
    Serial.run ⟨.body1, acc⟩ [y] = (⟨.body0, acc ++ [Config.esc, y]⟩, []) := by
  simp [Serial.run, Serial.byte, he, hs]

/-! ## The statements -/

/-- Settles O43: what is not accepted is refused, what is accepted is carried out; no pure command's meaning looks
at the state. -/
theorem commandsAreAcceptedExactlyWhenTheyMay : Obligations.CommandsAreAcceptedExactlyWhenTheyMay :=
  ⟨fun i s => exec_next_iff_accepts s i, fun _ => exec_pureCommand, fun p => ⟨_, execEncode_eq p⟩⟩

/-- Settles O53: a layout answers its fields, which are quotients and remainders of its bytes. -/
theorem layoutsAnswerTheirFields : Obligations.LayoutsAnswerTheirFields := by
  refine fun s => ⟨fun pbc v f scr => rfl, fun i c t => rfl, ?controlWord, ?flags⟩
  case controlWord =>
    rintro cw d u b l t r rfl rfl rfl rfl rfl rfl
    rw [← Response.ofControlWord_eq]
    rfl
  case flags =>
    rintro f u e rfl rfl
    rw [← Response.ofFlags_eq]
    rfl

/-- Settles O54: a token is its bytes reaching the RX unit, accepted or refused as any bytes are. -/
theorem tokensReachTheReceiveBuffer : Obligations.TokensReachTheReceiveBuffer := by
  intro i c s htoken
  have hbytes : tokenBytes i = some c := by
    rcases htoken with ⟨rfl, rfl⟩ | ⟨rfl, rfl⟩ | ⟨x, rfl, rfl⟩ | ⟨rfl, rfl⟩ <;> rfl
  rw [exec_token hbytes]
  refine ⟨fun hk he hroom => ?_, receiveBytes_datagram c s, receiveBytes_streamEnded c s,
    fun cap hk he => receiveBytes_bufferFull c s hk he⟩
  exact receiveBytes_accepted c s ((s.acceptsBytes_iff c).2 ⟨hk, he, (s.fits_iff c).2 hroom⟩)

/-- Settles O55: the scan state reads each token's bytes; an `FE` waits for its follower and then stands before
it. -/
theorem tokensBuildThePayload : Obligations.TokensBuildThePayload := by
  intro s t acc hs
  refine ⟨fun x hx h => ?lit, fun h => ?escFe, fun h => ?sof, fun h => ?loneFe⟩
  case lit => rw [exec_token_next_serial rfl h, hs, Serial.run_body0_lit acc x [] hx]; rfl
  case escFe => rw [exec_token_next_serial rfl h, hs, Serial.run_body0_pair]; rfl
  case sof => rw [exec_token_next_serial rfl h, hs, Config.marker, Serial.run_body0_sof]; rfl
  case loneFe =>
    have hheld : t.serial = ⟨.body1, acc⟩ := by
      rw [exec_token_next_serial rfl h, hs, Serial.run_body0_esc]
    refine ⟨by rw [hheld]; rfl, fun y u he hstx hu => ?_⟩
    rw [exec_token_next_serial rfl hu, hheld, Serial.run_body1_other acc y he hstx]
    rfl

end Sys2Proof.Machine
end

section
/-! SUPPORT. Written words and the reserved command code (R71, R72, R78, R80, R83). -/

namespace Sys2Proof

/-- A table row is read as the instruction whose transfers its bits stand for. -/
theorem decodeTableWord_of_encodePort (nbits w : Nat) (i : Instr) (rest : List Beat)
    (hbeats : tableBeats nbits w = encodePort i ++ rest) (hwf : i.wellFormed = true)
    (hfollow : followerAllowed i rest = true) : decodeTableWord nbits w = some i := by
  rw [decodeTableWord, hbeats, decodePort_encodePort i rest hwf hfollow]

/-- R80: with an operand of zeros behind it, each of the sixteen codes is read as a command. -/
theorem decodeTableWord_command_isSome : ∀ w : Fin 16, (decodeTableWord 8 w).isSome = true := by decide

/-- R80, R83: the reserved command is read from its own code alone. -/
theorem code_of_decodeCommand_reserved0 {code : BitVec 4} {r rest : List Beat}
    (h : decodeCommand code r = .ok (.reserved0, rest)) : code = 0x0 := by
  obtain ⟨-, -, hwritten⟩ := decodeCommand_canonical code r .reserved0 rest h
  cases hwritten
  rfl

/-- R80, R83: a number of four bits other than 0 is not read as the reserved command. -/
theorem decodeTableWord_ne_reserved0 (w : Fin 16) (hw : w ≠ 0) :
    decodeTableWord 8 w ≠ some .reserved0 := by
  have hbeats : tableBeats 8 w = .cmd (BitVec.ofNat 4 w) :: zeroOperand w := by
    rw [tableBeats, if_pos (by decide), if_pos w.isLt]
  intro h
  rw [decodeTableWord, hbeats] at h
  split at h
  · next i r hread =>
    cases h
    have hcode : BitVec.ofNat 4 w = 0x0 := code_of_decodeCommand_reserved0 hread
    have hzero : w.val % 16 = 0 := congrArg BitVec.toNat hcode
    have hlt := w.isLt
    exact hw (Fin.ext (by rw [Fin.val_zero]; omega))
  · cases h

end Sys2Proof

namespace Sys2Proof.Machine

/-- Settles O3: each of the words is what the encoder writes for the instruction, before what is left. -/
theorem writtenWordsAreRead : Obligations.WrittenWordsAreRead :=
  ⟨decodeTableWord_of_encodePort 8 0x0 .reserved0 [] rfl rfl rfl,
    decodeTableWord_of_encodePort 8 0x7 .rxDrain [] rfl rfl rfl,
    decodePort_encodePort (.deframe [0xFE, 0x02] true) [] rfl rfl,
    decodePort_encodePort (.brightness 0x00D5) [.cmd 0x7] rfl rfl,
    decodePort_encodePort (.messageFixed 0x0001 0x00D5 0x0005) [] rfl rfl,
    decodeTableWord_of_encodePort 16 0xFE02 .sof [] rfl rfl rfl,
    decodeTableWord_of_encodePort 16 0xFEFE .escFe [] rfl rfl rfl,
    decodePort_encodePort .loneFe [.wire 0x41] rfl rfl⟩

/-- Settles O42: the step refuses because the meaning does, and no other code is read as this command. -/
theorem reservedCommandIsRefused : Obligations.ReservedCommandIsRefused := by
  refine ⟨fun s => rfl, fun s rest hport => ?step, fun w hw => ?codes⟩
  case step =>
    have hread : decodePort s.port = .ok (.reserved0, rest) := by rw [hport]; rfl
    have hreset : firstReset s.port = firstReset rest := by rw [hport]; rfl
    obtain ⟨-, hrefused⟩ := stepRunsTheInstructionOnThePort s .reserved0 rest hread
    rw [← hreset]
    exact hrefused .reservedCommand rfl
  case codes =>
    obtain ⟨i, hi⟩ := Option.isSome_iff_exists.1 (decodeTableWord_command_isSome w)
    exact ⟨i, hi, fun h => decodeTableWord_ne_reserved0 w hw (h ▸ hi)⟩

end Sys2Proof.Machine
end

section
/-! SUPPORT. Fields of a byte string read back and written back in place (R9, R52, R75, R114). -/

namespace Sys2Proof

/-- R52: what stands at an offset is the byte read there and what follows it. -/
theorem drop_eq_rd8_cons (b : Bytes) (o : Nat) (h : o < b.length) :
    b.drop o = rd8 b o :: b.drop (o + 1) := by
  rw [List.drop_eq_getElem_cons h, rd8, List.getD_eq_getElem b 0 h]

/-- R52: a 16-bit field read inside a string, written back before what follows it, is the string from there on. -/
theorem le16_rd16_append_drop (b : Bytes) (o : Nat) (h : o + 2 ≤ b.length) :
    le16 (rd16 b o) ++ b.drop (o + 2) = b.drop o := by
  have hpair : le16 (rd16 b o) = [rd8 b o, rd8 b (o + 1)] := le16_rd16_pair (rd8 b o) (rd8 b (o + 1)) []
  rw [hpair, drop_eq_rd8_cons b o (by omega), drop_eq_rd8_cons b (o + 1) (by omega)]
  rfl

/-- R114: bit 7 of the high byte is bit 15 of the word. -/
theorem le16_or_bit15 (cw : Half) :
    le16 (cw ||| 0x8000) = [cw.extractLsb' 0 8, cw.extractLsb' 8 8 ||| 0x80] := by
  have hlow : (cw ||| 0x8000).extractLsb' 0 8 = cw.extractLsb' 0 8 := by
    rw [BitVec.extractLsb'_or, show (0x8000 : Half).extractLsb' 0 8 = 0 by decide]
    exact BitVec.or_zero
  have hhigh : (cw ||| 0x8000).extractLsb' 8 8 = cw.extractLsb' 8 8 ||| 0x80 := by
    rw [BitVec.extractLsb'_or, show (0x8000 : Half).extractLsb' 8 8 = 0x80 by decide]
  rw [le16, hlow, hhigh]

/-- R75: with bit 15 set a word is at least 32768. -/
theorem le_toNat_or_bit15 (cw : Half) : 32768 ≤ (cw ||| 0x8000).toNat := by
  rw [BitVec.toNat_or]
  exact Nat.right_le_or

end Sys2Proof

namespace Sys2Proof.Machine

/-- R75: bit 15 is set from 32768 on. -/
theorem controlDataBit_eq_one_iff (cw : Half) : controlDataBit cw = 1 ↔ 32768 ≤ cw.toNat := by
  have hlt := cw.isLt
  have hbit : controlDataBit cw = BitVec.ofNat 1 (cw.toNat / 32768) := extractLsb'_eq_ofNat_div cw 15 1
  rw [hbit, ← BitVec.toNat_inj, BitVec.toNat_ofNat, show (1 : BitVec 1).toNat = 1 from rfl]
  omega

/-- R75: bit 15 is clear below 32768. -/
theorem controlDataBit_eq_zero (cw : Half) (h : cw.toNat < 32768) : controlDataBit cw = 0 := by
  have hbit : controlDataBit cw = BitVec.ofNat 1 (cw.toNat / 32768) := extractLsb'_eq_ofNat_div cw 15 1
  rw [hbit, Nat.div_eq_of_lt h]
  rfl

/-- R114: a byte behind a known beginning has its bit 7 set there. -/
theorem setTopBit_append_right (a b : Bytes) (o : Nat) :
    setTopBit (a ++ b) (a.length + o) = a ++ setTopBit b o := by
  rw [setTopBit, setTopBit, rd8_append_right, List.set_append_right _ _ (by omega), Nat.add_sub_cancel_left]

end Sys2Proof.Machine
end

section
/-! SUPPORT. The image of a message and of a packet, and what `ENCODE` answers (R71, R72, R100, R101, R110). -/

namespace Sys2Proof.Machine

/-! ## One message -/

/-- R72: a message takes six bytes and its text. -/
@[simp] theorem encodeMessage_length (m : DisplayMessage) : (encodeMessage m).length = 6 + m.text.length := by
  simp [encodeMessage]
  omega

/-- R72: the control word stands at offset 2 of its message. -/
theorem rd16_encodeMessage_controlWord (m : DisplayMessage) (r : Bytes) :
    rd16 (encodeMessage m ++ r) 2 = m.controlWord :=
  rd16_le16_append m.controlWord (le16 (BitVec.ofNat 16 m.text.length) ++ m.text ++ r)

/-- R72: the index stands at offset 0 of its message. -/
theorem rd16_encodeMessage_index (m : DisplayMessage) (r : Bytes) : rd16 (encodeMessage m ++ r) 0 = m.index :=
  rd16_le16_append m.index (le16 m.controlWord ++ le16 (BitVec.ofNat 16 m.text.length) ++ m.text ++ r)

/-- R72: the text length stands at offset 4 of its message, as far as its field can say it. -/
theorem rd16_encodeMessage_textLength (m : DisplayMessage) (r : Bytes) (h : m.text.length ≤ 65535) :
    (rd16 (encodeMessage m ++ r) 4).toNat = m.text.length := by
  have hfield : rd16 (encodeMessage m ++ r) 4 = BitVec.ofNat 16 m.text.length :=
    rd16_le16_append (BitVec.ofNat 16 m.text.length) (m.text ++ r)
  rw [hfield, BitVec.toNat_ofNat]
  omega

/-- R72: the text and what follows the message stand at offset 6. -/
theorem drop_six_encodeMessage (m : DisplayMessage) (r : Bytes) :
    (encodeMessage m ++ r).drop 6 = m.text ++ r := rfl

/-- R72, R101: bytes that hold a whole message begin with the encoding of the message read from them. -/
theorem eq_encodeMessage_append (r : Bytes) (h : 6 + (rd16 r 4).toNat ≤ r.length) :
    r = encodeMessage ⟨rd16 r 0, rd16 r 2, (r.drop 6).take (rd16 r 4).toNat⟩
      ++ r.drop (6 + (rd16 r 4).toNat) := by
  have hlen : ((r.drop 6).take (rd16 r 4).toNat).length = (rd16 r 4).toNat := by
    rw [List.length_take, List.length_drop]
    omega
  calc r = le16 (rd16 r 0) ++ (le16 (rd16 r 2) ++ (le16 (rd16 r 4) ++ r.drop 6)) := by
        rw [le16_rd16_append_drop r 4 (by omega), le16_rd16_append_drop r 2 (by omega),
          le16_rd16_append_drop r 0 (by omega), List.drop_zero]
    _ = _ := by
        rw [encodeMessage, hlen, BitVec.ofNat_toNat, BitVec.setWidth_eq, ← List.drop_drop]
        simp only [List.append_assoc, List.take_append_drop]

/-- R114: setting bit 7 at offset 3 of a message sets bit 15 of its control word and nothing else. -/
theorem setTopBit_encodeMessage (m : DisplayMessage) (r : Bytes) :
    setTopBit (encodeMessage m ++ r) 3
      = encodeMessage { m with controlWord := m.controlWord ||| 0x8000 } ++ r := by
  rw [encodeMessage, encodeMessage, le16_or_bit15]
  rfl

/-! ## A packet -/

/-- R100: the body of a packet takes four bytes and its messages. -/
theorem packetBody_length_eq (p : Packet) : (packetBody p).length = 4 + (messageBytes p.messages).length := by
  simp [packetBody]
  omega

/-- R100, R101: the length of the messages, each with its six fixed bytes. -/
theorem messageBytes_length (ms : List DisplayMessage) :
    (messageBytes ms).length = (ms.map fun m => 6 + m.text.length).sum := by
  simp [messageBytes, List.length_flatMap]

/-- R71, R73: the image of a packet, its body behind the body's length. -/
def packetImage (p : Packet) : Bytes := le16 (BitVec.ofNat 16 (packetBody p).length) ++ packetBody p

/-- R73: the image is two bytes longer than what the PBC counts. -/
theorem packetImage_length (p : Packet) : (packetImage p).length = 2 + (packetBody p).length := by
  rw [packetImage, List.length_append, le16_length]

/-- R110: the first two bytes of an image hold the length of its body. -/
theorem rd16_packetImage (p : Packet) (h : (packetBody p).length ≤ 65535) :
    (rd16 (packetImage p) 0).toNat = (packetBody p).length := by
  rw [packetImage, rd16_le16_append, BitVec.toNat_ofNat]
  omega

section
variable (v f : Byte) (scr : Half) (pre post : List DisplayMessage) (m : DisplayMessage)

/-- R71: a message in the midst of others, each in its place. -/
theorem packetBody_append_cons : packetBody ⟨v, f, scr, pre ++ m :: post⟩
    = packetBody ⟨v, f, scr, pre⟩ ++ (encodeMessage m ++ messageBytes post) := by
  simp [packetBody, messageBytes]

/-- R101: a control word takes no part in the length of the body. -/
theorem packetBody_length_controlWord (cw : Half) : (packetBody ⟨v, f, scr, pre ++ m :: post⟩).length
    = (packetBody ⟨v, f, scr, pre ++ { m with controlWord := cw } :: post⟩).length := by
  simp [packetBody_append_cons]

/-- R56: a message in the midst of an image. -/
theorem packetImage_append_cons : packetImage ⟨v, f, scr, pre ++ m :: post⟩
    = le16 (BitVec.ofNat 16 (packetBody ⟨v, f, scr, pre ++ m :: post⟩).length)
      ++ packetBody ⟨v, f, scr, pre⟩ ++ (encodeMessage m ++ messageBytes post) := by
  rw [List.append_assoc, ← packetBody_append_cons, packetImage]

/-- R114: setting bit 7 at offset 3 of one message gives the image of the packet with bit 15 set there. -/
theorem setTopBit_packetImage :
    setTopBit (packetImage ⟨v, f, scr, pre ++ m :: post⟩) (6 + (messageBytes pre).length + 3)
      = packetImage ⟨v, f, scr, pre ++ { m with controlWord := m.controlWord ||| 0x8000 } :: post⟩ := by
  have hoffset (pbc : Half) :
      6 + (messageBytes pre).length = (le16 pbc ++ packetBody ⟨v, f, scr, pre⟩).length := by
    rw [List.length_append, le16_length, packetBody_length_eq, ← Nat.add_assoc]
  rw [packetImage_append_cons, hoffset, setTopBit_append_right, setTopBit_encodeMessage,
    packetBody_length_controlWord v f scr pre post m (m.controlWord ||| 0x8000), ← packetImage_append_cons]

end

/-! ## What `ENCODE` answers -/

/-- R191: the test of the texts. -/
theorem textsFit_iff (p : Packet) : textsFit p = true ↔ ∀ m ∈ p.messages, m.text.length ≤ 2048 := by
  rw [textsFit, List.all_eq_true]
  exact forall₂_congr fun _ _ => decide_eq_true_iff

/-- R100, R191: a text over 2048 bytes decides first. -/
theorem encodeImageBytes_textTooLong (p : Packet) (h : ∃ m ∈ p.messages, 2048 < m.text.length) :
    encodeImageBytes p = .error .textTooLong := by
  obtain ⟨m, hm, hlong⟩ := h
  have hnot : ¬ textsFit p = true := fun hfit => by
    have := (textsFit_iff p).1 hfit m hm
    omega
  rw [encodeImageBytes, if_neg hnot]

/-- R100, R196: a body over 65535 bytes decides next. -/
theorem encodeImageBytes_packetTooLong (p : Packet) (htexts : ∀ m ∈ p.messages, m.text.length ≤ 2048)
    (h : 65535 < (packetBody p).length) : encodeImageBytes p = .error .packetTooLong := by
  rw [encodeImageBytes, if_pos ((textsFit_iff p).2 htexts), sealImage, Config.pbcMax, if_pos h]

/-- R100: otherwise the image leaves. -/
theorem encodeImageBytes_ok (p : Packet) (htexts : ∀ m ∈ p.messages, m.text.length ≤ 2048)
    (h : (packetBody p).length ≤ 65535) : encodeImageBytes p = .ok (packetImage p) := by
  rw [encodeImageBytes, if_pos ((textsFit_iff p).2 htexts), sealImage, Config.pbcMax,
    if_neg (Nat.not_lt.2 h), packetImage]

/-- R100: an image that leaves is the packet's, with a body that the PBC can count. -/
theorem eq_packetImage_of_encodeImageBytes_ok {p : Packet} {e : Bytes} (h : encodeImageBytes p = .ok e) :
    (packetBody p).length ≤ 65535 ∧ e = packetImage p := by
  have hbody := packetBody_length_of_encodeImageBytes_ok h
  refine ⟨hbody, ?_⟩
  by_cases htexts : ∀ m ∈ p.messages, m.text.length ≤ 2048
  · rw [encodeImageBytes_ok p htexts hbody] at h
    exact (EncodeResult.ok.inj h).symm
  · rw [encodeImageBytes_textTooLong p (by simpa using htexts)] at h
    cases h

/-- R100: the command answers what the codec's function answers, and leaves the staging store empty. -/
theorem exec_encode (p : Packet) (s : State) :
    exec (.encode p) s
      = .next { s with staging := [], response := some (Response.ofEncode (encodeImageBytes p)) } :=
  execEncode_eq p s

end Sys2Proof.Machine
end

section
/-! SUPPORT. What `DECODE` answers: the tests at one message position, over all of them, and on a whole image
(R102, R103). -/

namespace Sys2Proof.Machine

/-! ## One message position -/

/-- R103: a message that the decoder's tests let pass when it stands whole: bit 15 is clear, and its field can
say its text's length. -/
def Readable (m : DisplayMessage) : Prop := m.controlWord.toNat < 32768 ∧ m.text.length ≤ 65535

/-- R103: at the end of the input the messages so far are the packet's. -/
@[simp] theorem decodeMessages_nil (n : Nat) (ms : List DisplayMessage) : decodeMessages n [] ms = .ok ms := by
  cases n <;> rfl

/-- R103, tests (3), (5) and (6): an end in the midst of a message is `Truncated`, unless bit 15 was read
before. -/
theorem decodeMessages_truncated (n : Nat) (r : Bytes) (ms : List DisplayMessage) (hpos : 1 ≤ r.length)
    (hbit : r.length < 4 ∨ (rd16 r 2).toNat < 32768) (hend : r.length < 6 + (rd16 r 4).toNat) :
    decodeMessages n r ms = .error .truncated := by
  cases n with
  | zero => rw [decodeMessages, if_neg (by omega)]
  | succ n =>
    have hclear : ¬ r.length < 4 → ¬ controlDataBit (rd16 r 2) = 1 := fun h => by
      rw [controlDataBit_eq_one_iff]
      omega
    rw [decodeMessages, if_neg (by omega), Config.msgHdr, Config.msgFixed]
    by_cases hhdr : r.length < 4
    · rw [if_pos hhdr]
    · rw [if_neg hhdr, if_neg (hclear hhdr), if_pos hend, ite_self]

/-- R103, test (4): bit 15 set is `UnsupportedControlData`, whatever stands behind the control word. -/
theorem decodeMessages_controlData (n : Nat) (r : Bytes) (ms : List DisplayMessage) (hlen : 4 ≤ r.length)
    (hbit : 32768 ≤ (rd16 r 2).toNat) : decodeMessages (n + 1) r ms = .error .unsupportedControlData := by
  rw [decodeMessages, if_neg (by omega), Config.msgHdr, if_neg (by omega),
    if_pos ((controlDataBit_eq_one_iff _).2 hbit)]

/-- R103: a whole message is accepted, and the tests begin again behind it. -/
theorem decodeMessages_message (n : Nat) (m : DisplayMessage) (r : Bytes) (ms : List DisplayMessage)
    (hm : Readable m) : decodeMessages (n + 1) (encodeMessage m ++ r) ms = decodeMessages n r (ms ++ [m]) := by
  obtain ⟨hclear, htext⟩ := hm
  have hlen : (encodeMessage m ++ r).length = 6 + m.text.length + r.length := by
    rw [List.length_append, encodeMessage_length]
  have hbit : ¬ controlDataBit m.controlWord = 1 := by rw [controlDataBit_eq_one_iff]; omega
  have hrest : (encodeMessage m ++ r).drop (6 + m.text.length) = r :=
    List.drop_left' (encodeMessage_length m)
  rw [decodeMessages, rd16_encodeMessage_controlWord, rd16_encodeMessage_index,
    rd16_encodeMessage_textLength m r htext, Config.msgHdr, Config.msgFixed, if_neg (by omega),
    if_neg (by omega), if_neg hbit, if_neg (by omega), if_neg (by omega), hrest, drop_six_encodeMessage,
    List.take_left]

/-- R103: what can stand at a message position: nothing, the beginning of a message, a control word with
bit 15 set, or a whole message that is accepted. -/
theorem messagePosition_cases (r : Bytes) :
    r = [] ∨
    (1 ≤ r.length ∧ (r.length < 4 ∨ (rd16 r 2).toNat < 32768) ∧ r.length < 6 + (rd16 r 4).toNat) ∨
    (4 ≤ r.length ∧ 32768 ≤ (rd16 r 2).toNat) ∨
    ∃ m r', Readable m ∧ r = encodeMessage m ++ r' := by
  by_cases hnil : r = []
  · exact .inl hnil
  have hpos : 1 ≤ r.length := List.length_pos_iff.2 hnil
  by_cases hdata : 4 ≤ r.length ∧ 32768 ≤ (rd16 r 2).toNat
  · exact .inr (.inr (.inl hdata))
  by_cases hend : r.length < 6 + (rd16 r 4).toNat
  · exact .inr (.inl ⟨hpos, by omega, hend⟩)
  · refine .inr (.inr (.inr ⟨_, _, ⟨?_, ?_⟩, eq_encodeMessage_append r (by omega)⟩))
    · show (rd16 r 2).toNat < 32768
      omega
    · have hlen := (rd16 r 4).isLt
      rw [List.length_take]
      omega

/-! ## All message positions -/

/-- R103: behind whole messages the tests go on with what remains. -/
theorem decodeMessages_messageBytes (n : Nat) (ms acc : List DisplayMessage) (r : Bytes)
    (h : ∀ m ∈ ms, Readable m) :
    decodeMessages (n + ms.length) (messageBytes ms ++ r) acc = decodeMessages n r (acc ++ ms) := by
  induction ms generalizing acc with
  | nil => rw [List.append_nil]; rfl
  | cons m ms ih =>
    obtain ⟨hm, hms⟩ := List.forall_mem_cons.1 h
    calc decodeMessages (n + ms.length + 1) (encodeMessage m ++ messageBytes ms ++ r) acc
        = decodeMessages (n + ms.length) (messageBytes ms ++ r) (acc ++ [m]) := by
          rw [List.append_assoc, decodeMessages_message _ m _ acc hm]
      _ = decodeMessages n r (acc ++ m :: ms) := by rw [ih _ hms, List.append_assoc]; rfl

/-- R102, R103: the tests accept the whole rest as messages, or answer one of two error kinds; the bound on the
positions is not used up. -/
theorem decodeMessages_cases (n : Nat) (r : Bytes) (acc : List DisplayMessage) (hn : r.length ≤ n) :
    (∃ ms, decodeMessages n r acc = .ok (acc ++ ms) ∧ (∀ m ∈ ms, Readable m) ∧ r = messageBytes ms) ∨
    decodeMessages n r acc = .error .truncated ∨
    decodeMessages n r acc = .error .unsupportedControlData := by
  induction n generalizing r acc with
  | zero =>
    obtain rfl : r = [] := List.length_eq_zero_iff.1 (by omega)
    exact .inl ⟨[], by simp, by simp, rfl⟩
  | succ n ih =>
    rcases messagePosition_cases r with rfl | ⟨hpos, hbit, hend⟩ | ⟨hlen, hbit⟩ | ⟨m, r', hm, rfl⟩
    · exact .inl ⟨[], by simp, by simp, rfl⟩
    · exact .inr (.inl (decodeMessages_truncated _ r acc hpos hbit hend))
    · exact .inr (.inr (decodeMessages_controlData n r acc hlen hbit))
    · rw [decodeMessages_message n m r' acc hm]
      have hn' : r'.length ≤ n := by
        rw [List.length_append, encodeMessage_length] at hn
        omega
      rcases ih r' (acc ++ [m]) hn' with ⟨ms, hok, hms, rfl⟩ | herr
      · exact .inl ⟨m :: ms, by rw [hok, List.append_assoc]; rfl, List.forall_mem_cons.2 ⟨hm, hms⟩, rfl⟩
      · exact .inr herr

/-! ## A whole image -/

/-- R102: the answer to an image with the fixed part of a packet, from what the message positions give. -/
def decodeAnswer (p : Packet) : Except ErrorKind (List DisplayMessage) → DecodeResult
  | .ok ms => .ok { p with messages := ms }
  | .error k => .error k

/-- R103, test (1). -/
theorem decodeImageBytes_tooShort (b : Bytes) (h : b.length < 6) : decodeImageBytes b = .error .tooShort := by
  rw [decodeImageBytes, Config.minPacket, if_pos h]

/-- R103, test (2). -/
theorem decodeImageBytes_lengthMismatch (b : Bytes) (hlen : 6 ≤ b.length)
    (hpbc : (rd16 b 0).toNat ≠ b.length - 2) : decodeImageBytes b = .error .lengthMismatch := by
  rw [decodeImageBytes, Config.minPacket, if_neg (Nat.not_lt.2 hlen), if_pos hpbc]

/-- R103: behind tests (1) and (2) the message positions decide. -/
theorem decodeImageBytes_of_pbc (b : Bytes) (hlen : 6 ≤ b.length) (hpbc : (rd16 b 0).toNat = b.length - 2) :
    decodeImageBytes b
      = decodeAnswer ⟨rd8 b 2, rd8 b 3, rd16 b 4, []⟩ (decodeMessages b.length (b.drop 6) []) := by
  rw [decodeImageBytes, Config.minPacket, Config.pktFixed, if_neg (Nat.not_lt.2 hlen),
    if_neg (not_not.2 hpbc)]
  cases decodeMessages b.length (b.drop 6) [] <;> rfl

/-- R71: bytes with a packet's fixed part are that part, written again, before the rest. -/
theorem eq_fixedPart_append (b : Bytes) (h : 6 ≤ b.length) :
    b = le16 (rd16 b 0) ++ packetBody ⟨rd8 b 2, rd8 b 3, rd16 b 4, []⟩ ++ b.drop 6 := by
  calc b = le16 (rd16 b 0) ++ (rd8 b 2 :: rd8 b 3 :: (le16 (rd16 b 4) ++ b.drop 6)) := by
        rw [le16_rd16_append_drop b 4 (by omega), ← drop_eq_rd8_cons b 3 (by omega),
          ← drop_eq_rd8_cons b 2 (by omega), le16_rd16_append_drop b 0 (by omega), List.drop_zero]
    _ = _ := rfl

/-- R103: behind the fixed part and whole messages, in an image with the right PBC, what remains decides. -/
theorem decodeImageBytes_behind_messages (pbc : Half) (p : Packet) (r : Bytes)
    (hms : ∀ m ∈ p.messages, Readable m) (hpbc : pbc.toNat = (packetBody p).length + r.length) :
    ∃ n, decodeImageBytes (le16 pbc ++ packetBody p ++ r)
      = decodeAnswer p (decodeMessages (n + 1) r p.messages) := by
  set b := le16 pbc ++ packetBody p ++ r with hb
  have hbody := packetBody_length_eq p
  have hsix := six_mul_length_le_messageBytes p.messages
  have hlen : b.length = 2 + (packetBody p).length + r.length := by simp [hb]; omega
  have hfield : rd16 b 0 = pbc := by rw [hb, List.append_assoc, rd16_le16_append]
  have hscreen : rd16 b 4 = p.screen := rd16_le16_append p.screen (messageBytes p.messages ++ r)
  have hrest : b.drop 6 = messageBytes p.messages ++ r := rfl
  obtain ⟨n, hn⟩ : ∃ n, b.length = (n + 1) + p.messages.length :=
    ⟨b.length - p.messages.length - 1, by omega⟩
  refine ⟨n, ?_⟩
  rw [decodeImageBytes_of_pbc b (by omega) (by rw [hfield]; omega), hn, hrest, hscreen,
    decodeMessages_messageBytes (n + 1) p.messages [] r hms, List.nil_append]
  cases decodeMessages (n + 1) r p.messages <;> rfl

/-- R112: the image of a packet of readable messages decodes to the packet. -/
theorem decodeImageBytes_packetImage (p : Packet) (hms : ∀ m ∈ p.messages, Readable m)
    (hbody : (packetBody p).length ≤ 65535) : decodeImageBytes (packetImage p) = .ok p := by
  have hpbc : (BitVec.ofNat 16 (packetBody p).length).toNat = (packetBody p).length + ([] : Bytes).length := by
    rw [BitVec.toNat_ofNat, List.length_nil]
    omega
  obtain ⟨n, hn⟩ := decodeImageBytes_behind_messages _ p [] hms hpbc
  rw [List.append_nil, decodeMessages_nil] at hn
  exact hn

/-- R103, R194: an end in the midst of a message behind readable ones makes the image `Truncated`. -/
theorem decodeImageBytes_truncated (pbc : Half) (p : Packet) (r : Bytes)
    (hms : ∀ m ∈ p.messages, Readable m) (hpbc : pbc.toNat = (packetBody p).length + r.length)
    (hpos : 1 ≤ r.length) (hbit : r.length < 4 ∨ (rd16 r 2).toNat < 32768)
    (hend : r.length < 6 + (rd16 r 4).toNat) :
    decodeImageBytes (le16 pbc ++ packetBody p ++ r) = .error .truncated := by
  obtain ⟨n, hn⟩ := decodeImageBytes_behind_messages pbc p r hms hpbc
  rw [hn, decodeMessages_truncated _ r _ hpos hbit hend]
  rfl

/-- R103, R195: a control word with bit 15 set behind readable messages makes the image
`UnsupportedControlData`. -/
theorem decodeImageBytes_controlData (pbc : Half) (p : Packet) (r : Bytes)
    (hms : ∀ m ∈ p.messages, Readable m) (hpbc : pbc.toNat = (packetBody p).length + r.length)
    (hlen : 4 ≤ r.length) (hbit : 32768 ≤ (rd16 r 2).toNat) :
    decodeImageBytes (le16 pbc ++ packetBody p ++ r) = .error .unsupportedControlData := by
  obtain ⟨n, hn⟩ := decodeImageBytes_behind_messages pbc p r hms hpbc
  rw [hn, decodeMessages_controlData n r _ hlen hbit]
  rfl

/-- R102, R115: a string that is accepted is the image of its packet; any other gets one of four error kinds. -/
theorem decodeImageBytes_cases (b : Bytes) :
    (∃ p, decodeImageBytes b = .ok p ∧ (∀ m ∈ p.messages, Readable m) ∧
      (packetBody p).length ≤ 65535 ∧ b = packetImage p) ∨
    decodeImageBytes b = .error .tooShort ∨ decodeImageBytes b = .error .lengthMismatch ∨
    decodeImageBytes b = .error .truncated ∨ decodeImageBytes b = .error .unsupportedControlData := by
  by_cases hlen : b.length < 6
  · exact .inr (.inl (decodeImageBytes_tooShort b hlen))
  by_cases hmismatch : (rd16 b 0).toNat ≠ b.length - 2
  · exact .inr (.inr (.inl (decodeImageBytes_lengthMismatch b (by omega) hmismatch)))
  have hpbc : (rd16 b 0).toNat = b.length - 2 := not_not.1 hmismatch
  rw [decodeImageBytes_of_pbc b (by omega) hpbc]
  rcases decodeMessages_cases b.length (b.drop 6) [] (by rw [List.length_drop]; omega)
    with ⟨ms, hok, hms, hrest⟩ | herr | herr
  · have hwhole : b = le16 (rd16 b 0) ++ packetBody ⟨rd8 b 2, rd8 b 3, rd16 b 4, ms⟩ := by
      have hfixed := eq_fixedPart_append b (by omega)
      rw [hrest] at hfixed
      exact hfixed
    have hbody : (packetBody ⟨rd8 b 2, rd8 b 3, rd16 b 4, ms⟩).length = (rd16 b 0).toNat := by
      have := congrArg List.length hwhole
      rw [List.length_append, le16_length] at this
      omega
    refine .inl ⟨⟨rd8 b 2, rd8 b 3, rd16 b 4, ms⟩, by rw [hok]; rfl, hms, ?_, ?_⟩
    · have := (rd16 b 0).isLt
      omega
    · rw [packetImage, hbody, BitVec.ofNat_toNat, BitVec.setWidth_eq]
      exact hwhole
  · exact .inr (.inr (.inr (.inl (by rw [herr]; rfl))))
  · exact .inr (.inr (.inr (.inr (by rw [herr]; rfl))))

/-- R112, R115: `DECODE` accepts exactly the images of packets of readable messages whose body the PBC can
count. -/
theorem decodeImageBytes_ok_iff (b : Bytes) (p : Packet) :
    decodeImageBytes b = .ok p ↔
      (∀ m ∈ p.messages, Readable m) ∧ (packetBody p).length ≤ 65535 ∧ b = packetImage p := by
  refine ⟨fun h => ?_, fun ⟨hms, hbody, hb⟩ => hb ▸ decodeImageBytes_packetImage p hms hbody⟩
  rcases decodeImageBytes_cases b with ⟨q, hok, hq⟩ | herr | herr | herr | herr
  · rw [h] at hok
    cases hok
    exact hq
  all_goals rw [h] at herr; cases herr

/-- R103: the decoder meets the first message with bit 15 set behind messages with the bit clear. -/
theorem exists_first_controlData {ms : List DisplayMessage} (h : ∃ m ∈ ms, 32768 ≤ m.controlWord.toNat) :
    ∃ pre m post, ms = pre ++ m :: post ∧ (∀ x ∈ pre, x.controlWord.toNat < 32768) ∧
      32768 ≤ m.controlWord.toNat := by
  induction ms with
  | nil => simp at h
  | cons m ms ih =>
    by_cases hm : 32768 ≤ m.controlWord.toNat
    · exact ⟨[], m, ms, rfl, by simp, hm⟩
    · obtain ⟨pre, x, post, rfl, hpre, hx⟩ := ih (by simpa [hm] using h)
      exact ⟨m :: pre, x, post, rfl, List.forall_mem_cons.2 ⟨Nat.lt_of_not_le hm, hpre⟩, hx⟩

/-- R103, R195: bit 15 set in one message of a packet makes its image `UnsupportedControlData`: the messages
before the first such one are readable. -/
theorem decodeImageBytes_packetImage_controlData (p : Packet) (htexts : ∀ m ∈ p.messages, m.text.length ≤ 65535)
    (hbody : (packetBody p).length ≤ 65535) (h : ∃ m ∈ p.messages, 32768 ≤ m.controlWord.toNat) :
    decodeImageBytes (packetImage p) = .error .unsupportedControlData := by
  obtain ⟨v, f, scr, ms⟩ := p
  obtain ⟨pre, m, post, rfl, hpre, hbit⟩ := exists_first_controlData h
  have hreadable : ∀ x ∈ pre, Readable x := fun x hx => ⟨hpre x hx, htexts x (List.mem_append_left _ hx)⟩
  have hpbc : (BitVec.ofNat 16 (packetBody ⟨v, f, scr, pre ++ m :: post⟩).length).toNat
      = (packetBody ⟨v, f, scr, pre⟩).length + (encodeMessage m ++ messageBytes post).length := by
    rw [BitVec.toNat_ofNat, ← List.length_append, ← packetBody_append_cons]
    omega
  rw [packetImage_append_cons]
  refine decodeImageBytes_controlData _ ⟨v, f, scr, pre⟩ _ hreadable hpbc ?_ ?_
  · rw [List.length_append, encodeMessage_length]
    omega
  · rwa [rd16_encodeMessage_controlWord]

/-! ## The command -/

/-- R102: the command answers what the codec's function answers, and changes nothing else. -/
theorem exec_decode (b : Bytes) (s : State) :
    exec (.decode b) s = .next { s with response := some (Response.ofDecode (decodeImageBytes b)) } :=
  execDecode_eq b s

/-- R102: the command answers a packet exactly when the codec's function does. -/
theorem exec_decode_packet_iff (b : Bytes) (p : Packet) (s : State) :
    exec (.decode b) s = .next { s with response := some (.packet p) } ↔ decodeImageBytes b = .ok p := by
  rw [exec_decode]
  cases decodeImageBytes b <;> simp [Response.ofDecode]

/-- R102: an error of the codec's function is the command's. -/
theorem exec_decode_of_error {b : Bytes} {k : ErrorKind} (h : decodeImageBytes b = .error k) (s : State) :
    exec (.decode b) s = .next { s with response := some (.error k) } := by
  rw [exec_decode, h]
  rfl

end Sys2Proof.Machine
end

section
/-! SUPPORT. The statements of the packet codec and of its accessors (R100 to R115). -/

namespace Sys2Proof.Machine

/-- Settles O17: with its texts within 2048 bytes every message is readable but for bit 15, and the body's length
is the sum of R112. -/
theorem packetRoundTrip : Obligations.PacketRoundTrip := by
  intro p s htexts
  have hsum : 4 + (p.messages.map fun m => 6 + m.text.length).sum = (packetBody p).length := by
    rw [packetBody_length_eq, messageBytes_length]
  have hfield : ∀ m ∈ p.messages, m.text.length ≤ 65535 := fun m hm => (htexts m hm).trans (by decide)
  rw [hsum]
  refine ⟨fun hbody => ⟨packetImage p, ?image, fun hclear t => ?packet, fun hset => ?controlData⟩,
    fun hbody => ?tooLong⟩
  case image => rw [exec_encode, encodeImageBytes_ok p htexts hbody]; rfl
  case packet =>
    rw [exec_decode_packet_iff]
    exact decodeImageBytes_packetImage p (fun m hm => ⟨hclear m hm, hfield m hm⟩) hbody
  case controlData =>
    exact exec_decode_of_error (decodeImageBytes_packetImage_controlData p hfield hbody hset)
  case tooLong => rw [exec_encode, encodeImageBytes_packetTooLong p htexts hbody]; rfl

/-- Settles O20: an accepted string is the image of its packet, which is what `ENCODE` answers. -/
theorem converseRoundTrip : Obligations.ConverseRoundTrip := by
  intro b p s hexec
  obtain ⟨-, hbody, rfl⟩ := (decodeImageBytes_ok_iff b p).1 ((exec_decode_packet_iff b p s).1 hexec)
  refine ⟨fun htexts => ?_, fun hlong => ?_⟩
  · rw [exec_encode, encodeImageBytes_ok p htexts hbody]; rfl
  · rw [exec_encode, encodeImageBytes_textTooLong p hlong]; rfl

/-- Settles O12: what leaves is the packet's image, whose PBC counts the body. -/
theorem pbcCountsWhatFollowsIt : Obligations.PbcCountsWhatFollowsIt := by
  intro p s t e hexec hresp
  rw [exec_encode] at hexec
  cases hexec
  cases hok : encodeImageBytes p with
  | error k => rw [hok] at hresp; cases hresp
  | ok image =>
    rw [hok] at hresp
    cases hresp
    obtain ⟨hbody, rfl⟩ := eq_packetImage_of_encodeImageBytes_ok hok
    rw [rd16_packetImage p hbody, packetImage_length]
    omega

/-- Settles O14: by the five things the codec's function can answer. -/
theorem decodeAnswersEveryString : Obligations.DecodeAnswersEveryString := by
  intro b s
  refine ⟨_, exec_decode b s, ?_⟩
  rcases decodeImageBytes_cases b with ⟨p, hok, -⟩ | herr | herr | herr | herr
  · exact .inl ⟨p, by rw [hok]; rfl⟩
  · exact .inr (.inl (by rw [herr]; rfl))
  · exact .inr (.inr (.inl (by rw [herr]; rfl)))
  · exact .inr (.inr (.inr (.inl (by rw [herr]; rfl))))
  · exact .inr (.inr (.inr (.inr (by rw [herr]; rfl))))

/-- Settles O15: the three ways in which what remains is too short are one, an end before the message's own. -/
theorem decoderTestsRunInOrder : Obligations.DecoderTestsRunInOrder := by
  refine ⟨fun b s h => exec_decode_of_error (decodeImageBytes_tooShort b h) s,
    fun b s hlen hpbc => exec_decode_of_error (decodeImageBytes_lengthMismatch b hlen hpbc) s, ?_⟩
  intro s pbc v f scr ms r b hms hb hlength
  obtain rfl : b = le16 pbc ++ packetBody ⟨v, f, scr, ms⟩ ++ r := hb
  have hpbc : pbc.toNat = (packetBody ⟨v, f, scr, ms⟩).length + r.length := by
    rw [hlength, List.length_append, List.length_append, le16_length]
    omega
  have htruncated (hpos : 1 ≤ r.length) (hbit : r.length < 4 ∨ (rd16 r 2).toNat < 32768)
      (hend : r.length < 6 + (rd16 r 4).toNat) :=
    exec_decode_of_error (decodeImageBytes_truncated pbc ⟨v, f, scr, ms⟩ r hms hpbc hpos hbit hend) s
  refine ⟨fun hnil => ?packet, fun hpos hshort => htruncated hpos (by omega) (by omega),
    fun hlen hbit => ?controlData, fun hlen hbit => htruncated (by omega) (.inr hbit) (by omega),
    fun hlen hbit hend => htruncated (by omega) (.inr hbit) hend⟩
  case packet =>
    subst hnil
    obtain ⟨n, hn⟩ := decodeImageBytes_behind_messages pbc ⟨v, f, scr, ms⟩ [] hms hpbc
    rw [exec_decode_packet_iff, hn, decodeMessages_nil]
    rfl
  case controlData =>
    exact exec_decode_of_error (decodeImageBytes_controlData pbc ⟨v, f, scr, ms⟩ r hms hpbc hlen hbit) s

/-- Settles O18: the string keeps its length, and test (2) reads the new PBC. -/
theorem corruptedLengthIsRejected : Obligations.CorruptedLengthIsRejected := by
  intro e p s v hexec hv
  obtain ⟨-, -, rfl⟩ := (decodeImageBytes_ok_iff e p).1 ((exec_decode_packet_iff e p s).1 hexec)
  have hlen : (le16 v ++ (packetImage p).drop 2).length = (packetImage p).length := by
    rw [List.length_append, List.length_drop, le16_length, packetImage_length]
    omega
  refine exec_decode_of_error (decodeImageBytes_lengthMismatch _ ?_ ?_) s
  · rw [hlen, packetImage_length, packetBody_length_eq]
    omega
  · rwa [hlen, rd16_le16_append]

/-- Settles O19: the string is the image of the packet with bit 15 of that message set. -/
theorem controlDataIsRejected : Obligations.ControlDataIsRejected := by
  intro e p s i hexec hi
  obtain ⟨hms, hbody, rfl⟩ := (decodeImageBytes_ok_iff e p).1 ((exec_decode_packet_iff e p s).1 hexec)
  obtain ⟨v, f, scr, ms⟩ := p
  obtain ⟨pre, m, post, rfl, rfl⟩ : ∃ pre m post, ms = pre ++ m :: post ∧ pre.length = i :=
    ⟨ms.take i, ms[i], ms.drop (i + 1), by simp, List.length_take_of_le hi.le⟩
  have hoffset : messageOffset ⟨v, f, scr, pre ++ m :: post⟩ pre.length = 6 + (messageBytes pre).length := by
    rw [messageOffset, List.take_left, Config.pktFixed]
  rw [hoffset, setTopBit_packetImage]
  refine exec_decode_of_error (decodeImageBytes_packetImage_controlData _ ?texts ?body ?bit) s
  case texts =>
    have htexts : ∀ x ∈ pre ++ m :: post, x.text.length ≤ 65535 := fun x hx => (hms x hx).2
    simp only [List.forall_mem_append, List.forall_mem_cons] at htexts ⊢
    exact htexts
  case body => rwa [← packetBody_length_controlWord]
  case bit => exact ⟨_, List.mem_append_right _ List.mem_cons_self, le_toNat_or_bit15 m.controlWord⟩

/-- Settles O22: the messages of an accepted string are readable. -/
theorem decodedMessagesAreNeverControlData : Obligations.DecodedMessagesAreNeverControlData := by
  intro b p s t m hexec hm
  obtain ⟨hms, -, -⟩ := (decodeImageBytes_ok_iff b p).1 ((exec_decode_packet_iff b p s).1 hexec)
  have hclear : controlDataBit m.controlWord = 0 := controlDataBit_eq_zero _ (hms m hm).1
  rw [← hclear]
  rfl

/-- Settles O11: by the three answers of the codec's function. -/
theorem encodeAnswersTheImageOrAnError : Obligations.EncodeAnswersTheImageOrAnError := by
  intro p s body hb
  obtain rfl : body = packetBody p := hb
  refine ⟨fun hlong => ?_, fun htexts hbody => ?_, fun htexts hbody => ?_⟩
  · rw [exec_encode, encodeImageBytes_textTooLong p hlong]; rfl
  · rw [exec_encode, encodeImageBytes_packetTooLong p htexts hbody]; rfl
  · rw [exec_encode, encodeImageBytes_ok p htexts hbody]; rfl

/-- Settles O21: each field as a quotient and remainder of the word. -/
theorem accessorsReadTheirFields : Obligations.AccessorsReadTheirFields := by
  refine ⟨fun cw s => ?fields, rfl⟩
  obtain ⟨-, -, hbrightness, hleft, htext, hright⟩ := Response.controlFields.inj (Response.ofControlWord_eq cw)
  have hdata : controlDataBit cw = BitVec.ofNat 1 (cw.toNat / 32768 % 2) :=
    extractLsb'_eq_ofNat_div_mod cw 15 1
  rw [← hbrightness, ← hleft, ← htext, ← hright, ← hdata]
  exact ⟨rfl, rfl, rfl, rfl, rfl⟩

end Sys2Proof.Machine
end

section
/-! SUPPORT. Stuffed strings: where they can be cut, and how long their runs of `FE` are (R130, R132). -/

namespace Sys2Proof.Machine

/-- A string ends as its tail does. -/
theorem getLast?_ne_of_cons {z x : Byte} {r : Bytes} (h : (z :: r).getLast? ≠ some x) :
    r.getLast? ≠ some x :=
  mt (fun hr => by simp [List.getLast?_cons, hr]) h

/-- R130: a part of a stuffed string that does not end in `FE` ends between two stuffed bytes, so what follows
it is stuffed too. -/
theorem exists_stuff_of_stuff_eq_append (b p q : Bytes) (h : stuff b = p ++ q)
    (hlast : p.getLast? ≠ some Config.esc) : ∃ c, q = stuff c := by
  induction b generalizing p with
  | nil => exact ⟨[], (List.append_eq_nil_iff.1 h.symm).2⟩
  | cons x b ih =>
    match p with
    | [] => exact ⟨x :: b, h.symm⟩
    | z :: p =>
      by_cases hx : x = Config.esc
      · rw [hx, stuff_esc] at h
        obtain ⟨rfl, htail⟩ := List.cons_eq_cons.1 h
        match p with
        | [] => exact absurd rfl hlast
        | w :: p =>
          exact ih p (List.cons_eq_cons.1 htail).2 (getLast?_ne_of_cons (getLast?_ne_of_cons hlast))
      · rw [stuff_other x b hx] at h
        exact ih p (List.cons_eq_cons.1 h).2 (getLast?_ne_of_cons hlast)

/-- R130: a stuffed string begins with an even number of `FE`. -/
theorem even_of_stuff_eq_replicate_append (b post : Bytes) (n : Nat)
    (h : stuff b = List.replicate n Config.esc ++ post) (hpost : post.head? ≠ some Config.esc) :
    n % 2 = 0 := by
  induction b generalizing n with
  | nil =>
    have hnone : List.replicate n Config.esc = [] := (List.append_eq_nil_iff.1 h.symm).1
    rw [(List.replicate_eq_nil_iff _).1 hnone]
  | cons x b ih =>
    match n with
    | 0 => rfl
    | 1 =>
      by_cases hx : x = Config.esc
      · rw [hx, stuff_esc] at h
        obtain rfl : Config.esc :: stuff b = post := (List.cons_eq_cons.1 h).2
        exact absurd rfl hpost
      · rw [stuff_other x b hx] at h
        exact absurd (List.cons_eq_cons.1 h).1 hx
    | n + 2 =>
      by_cases hx : x = Config.esc
      · rw [hx, stuff_esc] at h
        have hrest : stuff b = List.replicate n Config.esc ++ post :=
          (List.cons_eq_cons.1 (List.cons_eq_cons.1 h).2).2
        rw [Nat.add_mod_right]
        exact ih n hrest
      · rw [stuff_other x b hx] at h
        exact absurd (List.cons_eq_cons.1 h).1 hx

/-! ## The statements -/

/-- Settles O24: what stands before the run ends between two stuffed bytes, so the run opens a stuffed
string. -/
theorem stuffedRunsAreEven : Obligations.StuffedRunsAreEven := by
  intro b pre post n h hpre hpost
  rw [List.append_assoc] at h
  obtain ⟨c, hc⟩ := exists_stuff_of_stuff_eq_append b pre _ h hpre
  exact even_of_stuff_eq_replicate_append c post n hc.symm hpost

/-- Settles O25: each pair that stuffing writes for an `FE` collapses again. -/
theorem unstuffUndoesStuff : Obligations.UnstuffUndoesStuff := unstuff_stuff

end Sys2Proof.Machine
end

section
/-! SUPPORT. The single-pass form of `DEFRAME`, token by token, and its agreement with the two scans (R78, R136).
What `DEFRAME` answers on a given buffer is then read off the loop (R138 to R143). -/

namespace Sys2Proof.Machine

/-! ## The loop, token by token -/

/-- R136: at the end of the buffer. -/
@[simp] theorem singlePassLoop_nil (eos : Bool) (out : Bytes) :
    singlePassLoop eos [] out = if eos then some (out, []) else none := rfl

/-- R136: `LIT`. -/
theorem singlePassLoop_lit (eos : Bool) (x : Byte) (r out : Bytes) (h : x ≠ Config.esc) :
    singlePassLoop eos (x :: r) out = singlePassLoop eos r (out ++ [x]) := by
  cases r <;> simp [singlePassLoop, h]

/-- R136: `ESC_FE`. -/
@[simp] theorem singlePassLoop_pair (eos : Bool) (r out : Bytes) :
    singlePassLoop eos (Config.esc :: Config.esc :: r) out = singlePassLoop eos r (out ++ [Config.esc]) := by
  simp [singlePassLoop]

/-- R136: `SOF`. -/
@[simp] theorem singlePassLoop_sof (eos : Bool) (r out : Bytes) :
    singlePassLoop eos (Config.esc :: Config.stx :: r) out = some (out, Config.esc :: Config.stx :: r) := by
  simp [singlePassLoop, show Config.stx ≠ Config.esc by decide]

/-- R136, R140: `LONE_FE`; its follower is read as the next token. -/
theorem singlePassLoop_lone (eos : Bool) (y : Byte) (r out : Bytes) (he : y ≠ Config.esc)
    (hs : y ≠ Config.stx) :
    singlePassLoop eos (Config.esc :: y :: r) out = singlePassLoop eos (y :: r) (out ++ [Config.esc]) := by
  simp [singlePassLoop, he, hs]

/-- R136, R140: an `FE` as the last byte. -/
@[simp] theorem singlePassLoop_pending (eos : Bool) (out : Bytes) :
    singlePassLoop eos [Config.esc] out = if eos then some (out ++ [Config.esc], []) else none := by
  simp [singlePassLoop]

/-- R130, R136: the loop reads a stuffed string as the bytes it stands for. -/
theorem singlePassLoop_stuff_append (eos : Bool) (b r out : Bytes) :
    singlePassLoop eos (stuff b ++ r) out = singlePassLoop eos r (out ++ b) := by
  induction b generalizing out with
  | nil => simp
  | cons x b ih =>
    rw [List.append_cons out x b, ← ih]
    by_cases hx : x = Config.esc
    · rw [hx, stuff_esc, List.cons_append, List.cons_append, singlePassLoop_pair]
    · rw [stuff_other x b hx, List.cons_append, singlePassLoop_lit eos x _ _ hx]

/-- R130, R136: at the end of a stuffed string. -/
theorem singlePassLoop_stuff (eos : Bool) (b out : Bytes) :
    singlePassLoop eos (stuff b) out = if eos then some (out ++ b, []) else none := by
  rw [← List.append_nil (stuff b), singlePassLoop_stuff_append, singlePassLoop_nil]

/-! ## The loop against the boundary scan -/

/-- R134, R136: where the boundary scan finds the next marker, the loop stops with the bytes before it
un-stuffed. -/
theorem singlePassLoop_of_marker (eos : Bool) (j e : Nat) (b out : Bytes) (h : boundaryFrom j b = .marker e) :
    ∃ body r, b = body ++ Config.esc :: Config.stx :: r ∧ e = j + body.length ∧
      singlePassLoop eos b out = some (out ++ unstuff body, Config.esc :: Config.stx :: r) := by
  induction b using token_induction generalizing j out with
  | nil => cases h
  | pending => cases h
  | lit x b hx ih =>
    rw [boundaryFrom_lit j x b hx] at h
    obtain ⟨body, r, rfl, rfl, hloop⟩ := ih _ (out ++ [x]) h
    exact ⟨x :: body, r, rfl, by simp only [List.length_cons]; omega,
      by rw [singlePassLoop_lit eos x _ _ hx, hloop, unstuff_other x body hx,
        List.append_cons out x (unstuff body)]⟩
  | pair b ih =>
    rw [boundaryFrom_pair] at h
    obtain ⟨body, r, rfl, rfl, hloop⟩ := ih _ (out ++ [Config.esc]) h
    exact ⟨Config.esc :: Config.esc :: body, r, rfl, by simp only [List.length_cons]; omega,
      by rw [singlePassLoop_pair, hloop, unstuff_pair, List.append_cons out Config.esc (unstuff body)]⟩
  | sof r =>
    rw [boundaryFrom_sof] at h
    cases h
    exact ⟨[], r, rfl, rfl, by simp⟩
  | lone y b he hs ih =>
    rw [boundaryFrom_lone j y b he hs] at h
    obtain ⟨body, r, hbody, rfl, hloop⟩ := ih _ (out ++ [Config.esc]) h
    rw [← singlePassLoop_lone eos y b out he hs, hbody] at hloop
    rw [hbody]
    match body, hbody with
    | [], hbody => exact absurd (List.cons_eq_cons.1 hbody).1 he
    | z :: body, hbody =>
      obtain rfl : y = z := (List.cons_eq_cons.1 hbody).1
      exact ⟨Config.esc :: y :: body, r, rfl, by simp only [List.length_cons]; omega,
        by rw [hloop, unstuff_lone y _ he, List.append_cons out Config.esc (unstuff (y :: body))]⟩

/-- R134, R136: with no further marker the loop runs to the end of the buffer. -/
theorem singlePassLoop_of_no_marker (eos : Bool) (j : Nat) (b out : Bytes)
    (h : ∀ e, boundaryFrom j b ≠ .marker e) :
    singlePassLoop eos b out = if eos then some (out ++ unstuff b, []) else none := by
  induction b using token_induction generalizing j out with
  | nil => simp
  | pending => simp [unstuff]
  | lit x b hx ih =>
    rw [boundaryFrom_lit j x b hx] at h
    rw [singlePassLoop_lit eos x _ _ hx, ih _ _ h, unstuff_other x b hx,
      List.append_cons out x (unstuff b)]
  | pair b ih =>
    rw [boundaryFrom_pair] at h
    rw [singlePassLoop_pair, ih _ _ h, unstuff_pair, List.append_cons out Config.esc (unstuff b)]
  | sof b => exact absurd (boundaryFrom_sof j b) (h j)
  | lone y b he hs ih =>
    rw [boundaryFrom_lone j y b he hs] at h
    rw [singlePassLoop_lone eos y _ _ he hs, ih _ _ h, unstuff_lone y b he,
      List.append_cons out Config.esc (unstuff (y :: b))]

/-! ## What `DEFRAME` answers -/

/-- R136: `DEFRAME` behind a first marker, when the loop bounds the frame. -/
theorem deframeSinglePass_of_loop_some {buf : Bytes} {eos : Bool} {k : Nat} {p : Bytes × Bytes}
    (hk : firstMarker buf = some k) (h : singlePassLoop eos (buf.drop (k + 2)) [] = some p) :
    deframeSinglePass buf eos = ⟨p.1, p.2, true⟩ := by
  simp only [deframeSinglePass, hk, h]

/-- R136: `DEFRAME` behind a first marker, when the loop does not bound the frame. -/
theorem deframeSinglePass_of_loop_none {buf : Bytes} {eos : Bool} {k : Nat}
    (hk : firstMarker buf = some k) (h : singlePassLoop eos (buf.drop (k + 2)) [] = none) :
    deframeSinglePass buf eos = ⟨[], buf, false⟩ := by
  simp only [deframeSinglePass, hk, h]

/-- R136: the two scans and the un-stuffing of the span answer what the single pass answers. -/
theorem deframeBytes_eq_deframeSinglePass (buf : Bytes) (eos : Bool) :
    deframeBytes buf eos = deframeSinglePass buf eos := by
  rcases deframeBytes_cases buf eos with ⟨hd, -⟩ | ⟨k, e, hk, he, hd⟩ | ⟨k, hk, hopen, rfl, hd⟩
  · rcases (deframeBytes_not_found_iff buf eos).1 (by rw [hd]) with hnone | ⟨rfl, k, hk, hopen⟩
    · simp only [hd, deframeSinglePass, hnone]
    · have hloop := singlePassLoop_of_no_marker false (k + 2) (buf.drop (k + 2)) [] hopen
      rw [hd, deframeSinglePass_of_loop_none hk hloop]
  · obtain ⟨body, r, hbody, rfl, hloop⟩ := singlePassLoop_of_marker eos (k + 2) e _ [] he
    have hspan : (buf.take (k + 2 + body.length)).drop (k + 2) = body := by
      rw [List.drop_take, hbody, Nat.add_sub_cancel_left, List.take_left]
    have hrest : buf.drop (k + 2 + body.length) = Config.esc :: Config.stx :: r := by
      rw [← List.drop_drop, hbody, List.drop_left]
    rw [hd, deframeSinglePass_of_loop_some hk hloop, hspan, hrest, List.nil_append]
  · have hloop := singlePassLoop_of_no_marker true (k + 2) (buf.drop (k + 2)) [] hopen
    rw [hd, deframeSinglePass_of_loop_some hk hloop, List.nil_append]

/-- R133, R141: bytes that hold no marker, even with an `FE` behind them, put the first marker where they end. -/
theorem firstMarker_append_marker (pre r : Bytes) (h : firstMarker (pre ++ [Config.esc]) = none) :
    firstMarker (pre ++ Config.esc :: Config.stx :: r) = some pre.length := by
  induction pre with
  | nil => exact firstMarker_marker r
  | cons x pre ih =>
    cases pre with
    | nil =>
      have hm : ¬ (x = Config.esc ∧ Config.esc = Config.stx) := fun hm => absurd hm.2 (by decide)
      rw [List.cons_append, List.nil_append, firstMarker_pass x _ _ hm, firstMarker_marker]
      rfl
    | cons y pre =>
      have hm : ¬ (x = Config.esc ∧ y = Config.stx) := fun hm => by simp [hm] at h
      rw [List.cons_append, List.cons_append, firstMarker_pass x y _ hm, Option.map_eq_none_iff] at h
      rw [List.cons_append, List.cons_append, firstMarker_pass x y _ hm, ← List.cons_append, ih h]
      rfl

section
variable {pre r : Bytes} {eos : Bool}

/-- R136, R141: when the loop over the bytes behind the first marker bounds the frame, `DEFRAME` answers what the
loop built, without the bytes before the marker. -/
theorem deframeBytes_of_loop_some {p : Bytes × Bytes} (hpre : firstMarker (pre ++ [Config.esc]) = none)
    (h : singlePassLoop eos r [] = some p) :
    deframeBytes (pre ++ Config.esc :: Config.stx :: r) eos = ⟨p.1, p.2, true⟩ := by
  rw [deframeBytes_eq_deframeSinglePass]
  exact deframeSinglePass_of_loop_some (firstMarker_append_marker pre r hpre) (by rwa [drop_behind_marker])

/-- R136, R141: when the loop over the bytes behind the first marker does not bound the frame, `DEFRAME` keeps the
whole buffer. -/
theorem deframeBytes_of_loop_none (hpre : firstMarker (pre ++ [Config.esc]) = none)
    (h : singlePassLoop eos r [] = none) :
    deframeBytes (pre ++ Config.esc :: Config.stx :: r) eos
      = ⟨[], pre ++ Config.esc :: Config.stx :: r, false⟩ := by
  rw [deframeBytes_eq_deframeSinglePass]
  exact deframeSinglePass_of_loop_none (firstMarker_append_marker pre r hpre) (by rwa [drop_behind_marker])

end

/-- R143: the end of the stream bounds a frame, and its payload is what was framed. -/
theorem deframeBytes_frameBytes_ended (b : Bytes) : deframeBytes (frameBytes b) true = ⟨b, [], true⟩ :=
  deframeBytes_of_loop_some (pre := []) rfl (singlePassLoop_stuff true b [])

/-- R143: a frame with nothing behind it is not yet bounded while the stream goes on. -/
theorem deframeBytes_frameBytes_open (b : Bytes) :
    deframeBytes (frameBytes b) false = ⟨[], frameBytes b, false⟩ :=
  deframeBytes_of_loop_none (pre := []) rfl (singlePassLoop_stuff false b [])

/-- R138: a frame found before the end of the stream is bounded by the next marker, which opens the
remainder. -/
theorem exists_next_marker_of_found (buf : Bytes) (h : (deframeBytes buf false).found = true) :
    ∃ k e, firstMarker buf = some k ∧ boundary buf (k + 2) = .marker e ∧
      (deframeBytes buf false).rest = buf.drop e := by
  rcases deframeBytes_cases buf false with ⟨hd, -⟩ | ⟨k, e, hk, he, hd⟩ | ⟨k, hk, hopen, heos, hd⟩
  · rw [hd] at h
    cases h
  · exact ⟨k, e, hk, he, by rw [hd]⟩
  · cases heos

/-- R135: the result that `DEFRAME` leaves is the triple its function answers. -/
theorem exec_deframe_iff (b : Bytes) (eos : Bool) (s : State) (d : Deframed) :
    exec (.deframe b eos) s = .next { s with response := some (.deframed d) } ↔ deframeBytes b eos = d := by
  have hexec : exec (.deframe b eos) s = .next (s.respond (.deframed (deframeBytes b eos))) := rfl
  rw [hexec]
  simp [State.respond]

/-! ## The statements -/

/-- Settles O26: the loop un-stuffs the whole frame, and only the end of the stream bounds it. -/
theorem framingRoundTrip : Obligations.FramingRoundTrip := fun b s =>
  ⟨frameBytes b, rfl, (exec_deframe_iff _ true s _).2 (deframeBytes_frameBytes_ended b),
    (exec_deframe_iff _ false s _).2 (deframeBytes_frameBytes_open b)⟩

/-- Settles O27: the loop stops where the boundary scan does, with the span before it un-stuffed. -/
theorem deframeAgreesWithItsSinglePass : Obligations.DeframeAgreesWithItsSinglePass := fun buf eos s =>
  (exec_deframe_iff buf eos s _).2 (deframeBytes_eq_deframeSinglePass buf eos)

/-- Settles O28: `DEFRAME` finds nothing, or cuts the buffer where the next marker begins. -/
theorem deframeWaitsForTheNextMarker : Obligations.DeframeWaitsForTheNextMarker := by
  intro buf eos s d hexec
  obtain rfl := (exec_deframe_iff buf eos s d).1 hexec
  refine ⟨fun hnot => ?notFound, fun hfound heos => ?found⟩
  case notFound =>
    rcases deframeBytes_cases buf eos with ⟨hd, -⟩ | ⟨k, e, -, -, hd⟩ | ⟨k, -, -, -, hd⟩
    · rw [hd]
      exact ⟨rfl, rfl⟩
    all_goals
      rw [hd] at hnot
      cases hnot
  case found =>
    subst heos
    obtain ⟨k, e, hk, he, hrest⟩ := exists_next_marker_of_found buf hfound
    obtain ⟨hbehind, hlen, -, -⟩ := Serial.run_of_next_marker buf k e hk he
    obtain ⟨⟨r, hr⟩, -⟩ := Serial.ofBuffer_of_next_marker buf k e hk he
    rw [hrest]
    exact ⟨k, buf.take e, r, hk, (List.take_append_drop e buf).symm,
      by rwa [List.length_take, Nat.min_eq_left hlen], hr⟩

/-- Settles O29: with or without the bytes before it, the marker hands the same bytes to the loop. -/
theorem leadingBytesAreDroppedWithTheFirstFrame : Obligations.LeadingBytesAreDroppedWithTheFirstFrame := by
  intro pre buf eos s d hpre hexec
  have hd := (exec_deframe_iff _ eos s d).1 hexec
  cases hloop : singlePassLoop eos buf [] with
  | none =>
    obtain rfl := (deframeBytes_of_loop_none (pre := []) rfl hloop).symm.trans hd
    exact ⟨nofun, fun _ => (exec_deframe_iff _ eos s _).2 (deframeBytes_of_loop_none hpre hloop)⟩
  | some p =>
    obtain rfl := (deframeBytes_of_loop_some (pre := []) rfl hloop).symm.trans hd
    exact ⟨fun _ => (exec_deframe_iff _ eos s _).2 (deframeBytes_of_loop_some hpre hloop), nofun⟩

/-- Settles O30: the loop copies a lone `FE` and reads its follower, if there is one, as the next token. -/
theorem loneEscapeIsLiteral : Obligations.LoneEscapeIsLiteral := by
  intro b c y s he hs
  have hinside : singlePassLoop true (stuff b ++ Config.esc :: y :: stuff c) []
      = some (b ++ [Config.esc, y] ++ c, []) := by
    rw [singlePassLoop_stuff_append, singlePassLoop_lone true y _ _ he hs, singlePassLoop_lit true y _ _ he,
      singlePassLoop_stuff]
    simp
  have hlast : singlePassLoop true (stuff b ++ [Config.esc]) [] = some (b ++ [Config.esc], []) := by
    rw [singlePassLoop_stuff_append, singlePassLoop_pending]
    simp
  refine ⟨(exec_deframe_iff _ true s _).2 ?_, (exec_deframe_iff _ true s _).2 ?_⟩
  · rw [List.append_assoc _ [0xFE, y], List.append_assoc]
    exact deframeBytes_of_loop_some (pre := []) rfl hinside
  · exact deframeBytes_of_loop_some (pre := []) rfl hlast

/-- Settles O31: a marker behind a marker bounds the empty frame, and the frame of the empty string is a marker
alone. -/
theorem emptyFrameIsDelivered : Obligations.EmptyFrameIsDelivered := by
  refine ⟨fun r eos s => ?before, fun s => ?atEnd, fun r s hk hbuf => ?drained, fun s hk hbuf heos => ?closed⟩
  case before => exact (exec_deframe_iff _ eos s _).2 (deframeBytes_frameBytes_append_marker [] r eos)
  case atEnd => exact (exec_deframe_iff _ true s _).2 (deframeBytes_frameBytes_ended [])
  case drained =>
    have hd : deframeBytes s.rxbuf s.rxEos = ⟨[], Config.esc :: Config.stx :: r, true⟩ := by
      rw [hbuf]
      exact deframeBytes_frameBytes_append_marker [] r s.rxEos
    exact execRxDrain_found s _ hk hd rfl
  case closed =>
    have hd : deframeBytes s.rxbuf s.rxEos = ⟨[], [], true⟩ := by
      rw [hbuf, heos]
      exact deframeBytes_frameBytes_ended []
    exact ⟨_, execRxDrain_found s _ hk hd rfl, rfl, rfl, rfl⟩

end Sys2Proof.Machine
end

section
/-! SUPPORT. What the drains leave of a buffer, however it arrives, and what the feeds and the close of a stream
deliver (R85, R137, R144, R166, R167). -/

namespace Sys2Proof.Machine

/-! ## The remainder of a buffer -/

/-- R136: the loop that has stopped at the next marker reads nothing behind it. -/
theorem singlePassLoop_append_of_some (r b out : Bytes) (p : Bytes × Bytes)
    (h : singlePassLoop false r out = some p) : singlePassLoop false (r ++ b) out = some (p.1, p.2 ++ b) := by
  induction r using token_induction generalizing out with
  | nil => cases h
  | pending => cases h
  | lit x r hx ih =>
    rw [singlePassLoop_lit false x r out hx] at h
    rw [List.cons_append, singlePassLoop_lit false x _ out hx, ih _ h]
  | pair r ih =>
    rw [singlePassLoop_pair] at h
    rw [List.cons_append, List.cons_append, singlePassLoop_pair, ih _ h]
  | sof r =>
    rw [singlePassLoop_sof] at h
    cases h
    exact singlePassLoop_sof false (r ++ b) out
  | lone y r he hs ih =>
    rw [singlePassLoop_lone false y r out he hs] at h
    rw [List.cons_append, List.cons_append, singlePassLoop_lone false y _ out he hs, ← List.cons_append, ih _ h]

/-- R138: a frame bounded by the next marker stays the first frame when more bytes arrive, and they stand behind
its remainder. -/
theorem deframeBytes_append_of_found (a b : Bytes) (h : (deframeBytes a false).found = true) :
    deframeBytes (a ++ b) false
      = ⟨(deframeBytes a false).payload, (deframeBytes a false).rest ++ b, true⟩ := by
  obtain ⟨k, -, hk, -, -⟩ := exists_next_marker_of_found a h
  obtain ⟨hlen, -⟩ := Serial.run_of_firstMarker a k hk
  rw [deframeBytes_eq_deframeSinglePass] at h
  rw [deframeBytes_eq_deframeSinglePass, deframeBytes_eq_deframeSinglePass]
  cases hloop : singlePassLoop false (a.drop (k + 2)) [] with
  | none =>
    rw [deframeSinglePass_of_loop_none hk hloop] at h
    cases h
  | some p =>
    have hloop' : singlePassLoop false ((a ++ b).drop (k + 2)) [] = some (p.1, p.2 ++ b) := by
      rw [List.drop_append_of_le_length hlen]
      exact singlePassLoop_append_of_some _ b [] p hloop
    rw [deframeSinglePass_of_loop_some hk hloop,
      deframeSinglePass_of_loop_some (firstMarker_append_of_some a b k hk) hloop']

/-- R162, R166: what the drains leave of a buffer while the stream goes on: what stands behind the last frame that
is bounded, from its next marker on. -/
def remainderOf (buf : Bytes) : Bytes :=
  if (deframeBytes buf false).found = true then remainderOf (deframeBytes buf false).rest else buf
termination_by buf.length
decreasing_by
  have := deframeBytes_rest_length_of_found buf false ‹_›
  omega

/-- R162, R166: a drain that finds a frame goes on with its remainder. -/
theorem remainderOf_of_found {buf : Bytes} (h : (deframeBytes buf false).found = true) :
    remainderOf buf = remainderOf (deframeBytes buf false).rest := by
  rw [remainderOf, if_pos h]

/-- R162, R166: a drain that finds none leaves the buffer. -/
theorem remainderOf_of_not_found {buf : Bytes} (h : (deframeBytes buf false).found = false) :
    remainderOf buf = buf := by
  rw [remainderOf, if_neg (by simp [h])]

/-- R166: induction along the frames that are drained from a buffer. -/
theorem frame_induction {P : Bytes → Prop}
    (last : ∀ buf, (deframeBytes buf false).found = false → P buf)
    (frame : ∀ buf, (deframeBytes buf false).found = true → P (deframeBytes buf false).rest → P buf)
    (buf : Bytes) : P buf := by
  induction buf using remainderOf.induct with
  | case1 buf h ih => exact frame buf h ih
  | case2 buf h => exact last buf (by simpa using h)

/-- R166: no frame is left to be drained. -/
theorem remainderOf_not_found (buf : Bytes) : (deframeBytes (remainderOf buf) false).found = false := by
  induction buf using frame_induction with
  | last buf h => rwa [remainderOf_of_not_found h]
  | frame buf h ih => rwa [remainderOf_of_found h]

/-- R161, R166: draining before more bytes arrive changes nothing in what is left in the end. -/
theorem remainderOf_append (a b : Bytes) : remainderOf (remainderOf a ++ b) = remainderOf (a ++ b) := by
  induction a using frame_induction with
  | last a h => rw [remainderOf_of_not_found h]
  | frame a h ih =>
    have hd := deframeBytes_append_of_found a b h
    rw [remainderOf_of_found h, ih, remainderOf_of_found (buf := a ++ b) (by rw [hd]), hd]

/-- R31(b), R137: the byte-serial machine is at the same place after what is left as after the whole buffer, and
emits nothing on the way. -/
theorem Serial.run_remainderOf (buf : Bytes) :
    Serial.reset.run (remainderOf buf) = ((Serial.reset.run buf).1, []) := by
  induction buf using frame_induction with
  | last buf h =>
    have hnone : (Serial.reset.run buf).2 = [] := duePayloads_of_not_found buf false h
    rw [remainderOf_of_not_found h, ← hnone]
  | frame buf h ih =>
    obtain ⟨k, e, hk, he, hrest⟩ := exists_next_marker_of_found buf h
    obtain ⟨-, -, hstate, -⟩ := Serial.run_of_next_marker buf k e hk he
    rw [remainderOf_of_found h, ih, hrest, hstate]

/-- R137, R166: the payloads due in a buffer are those due before more bytes arrive, and then those due behind
them. -/
theorem duePayloads_append (a b : Bytes) (eos : Bool) :
    duePayloads (a ++ b) eos = duePayloads a false ++ duePayloads (remainderOf a ++ b) eos := by
  cases eos <;>
    simp [duePayloads, streamPayloads, Serial.run_append, Serial.run_remainderOf]

/-! ## Streams of frames -/

/-- R77, R131: frames with a marker behind them begin with a marker. -/
theorem exists_frames_append_marker_eq (ps : List Bytes) (r : Bytes) :
    ∃ r', ps.flatMap frameBytes ++ Config.esc :: Config.stx :: r = Config.esc :: Config.stx :: r' := by
  cases ps with
  | nil => exact ⟨r, rfl⟩
  | cons p ps => exact ⟨_, rfl⟩

/-- R135: of frames with a marker behind them, `DEFRAME` takes the first. -/
theorem deframeBytes_frames_append_marker (p : Bytes) (ps : List Bytes) (r : Bytes) (eos : Bool) :
    deframeBytes ((p :: ps).flatMap frameBytes ++ Config.esc :: Config.stx :: r) eos
      = ⟨p, ps.flatMap frameBytes ++ Config.esc :: Config.stx :: r, true⟩ := by
  obtain ⟨r', hr'⟩ := exists_frames_append_marker_eq ps r
  rw [List.flatMap_cons, List.append_assoc, hr', deframeBytes_frameBytes_append_marker]

/-- R137, R144: the payloads of frames with a marker behind them are due, in order. -/
theorem duePayloads_frames_append_marker (ps : List Bytes) (r : Bytes) (eos : Bool) :
    duePayloads (ps.flatMap frameBytes ++ Config.esc :: Config.stx :: r) eos
      = ps ++ duePayloads (Config.esc :: Config.stx :: r) eos := by
  induction ps with
  | nil => rfl
  | cons p ps ih =>
    have hd := deframeBytes_frames_append_marker p ps r eos
    rw [duePayloads_of_found _ eos (by rw [hd]), hd, ih, List.cons_append]

/-- R144, R166: of frames with a marker behind them, the drains leave what that marker opens. -/
theorem remainderOf_frames_append_marker (ps : List Bytes) (r : Bytes) :
    remainderOf (ps.flatMap frameBytes ++ Config.esc :: Config.stx :: r)
      = remainderOf (Config.esc :: Config.stx :: r) := by
  induction ps with
  | nil => rfl
  | cons p ps ih =>
    have hd := deframeBytes_frames_append_marker p ps r false
    rw [remainderOf_of_found (by rw [hd]), hd, ih]

/-- R143, R144: a frame with nothing behind it stays in the buffer while the stream goes on, nothing being due. -/
theorem remainderOf_frameBytes (p : Bytes) : remainderOf (frameBytes p) = frameBytes p :=
  remainderOf_of_not_found (by rw [deframeBytes_frameBytes_open])

/-- R143, R144: the end of the stream makes the payload of a last frame due. -/
theorem duePayloads_frameBytes (p : Bytes) (eos : Bool) :
    duePayloads (frameBytes p) eos = if eos then [p] else [] := by
  cases eos with
  | false => exact duePayloads_of_not_found _ false (by rw [deframeBytes_frameBytes_open])
  | true =>
    rw [duePayloads_of_found _ true (by rw [deframeBytes_frameBytes_ended]), deframeBytes_frameBytes_ended]
    rfl

/-- R137, R144: of a stream of frames every payload is due at its end, and all but the last before. -/
theorem duePayloads_frames (ps : List Bytes) (eos : Bool) :
    duePayloads (ps.flatMap frameBytes) eos = if eos then ps else ps.dropLast := by
  rcases List.eq_nil_or_concat ps with rfl | ⟨init, p, rfl⟩
  · cases eos <;> rfl
  · rw [List.concat_eq_append, List.flatMap_append, List.flatMap_singleton]
    have hdue : duePayloads (init.flatMap frameBytes ++ frameBytes p) eos
        = init ++ duePayloads (frameBytes p) eos := duePayloads_frames_append_marker init (stuff p) eos
    rw [hdue, duePayloads_frameBytes]
    cases eos <;> simp

/-- R144: of a stream of frames the last stays in the buffer while the stream goes on. -/
theorem remainderOf_frames (init : List Bytes) (p : Bytes) :
    remainderOf ((init ++ [p]).flatMap frameBytes) = frameBytes p := by
  rw [List.flatMap_append, List.flatMap_singleton]
  exact (remainderOf_frames_append_marker init (stuff p)).trans (remainderOf_frameBytes p)

/-! ## Feeds -/

/-- R166: the channel of a stream that goes on, in whose buffer no frame is left to be drained. -/
structure State.AwaitsBytes (s : State) : Prop where
  stream : s.rxKind = .stream
  goesOn : s.rxEos = false
  notFound : (deframeBytes s.rxbuf false).found = false

/-- R161, R166: what feeding the bytes of a stream does to the RX unit, however they are cut into chunks. -/
structure State.Fed (s : State) (c : Bytes) (t : State) : Prop where
  awaits : t.AwaitsBytes
  rxbufCap : t.rxbufCap = s.rxbufCap
  rxbuf : t.rxbuf = remainderOf (s.rxbuf ++ c)
  rxout : t.rxout = s.rxout ++ (duePayloads (s.rxbuf ++ c) false).map recordOf

/-- R166: an empty channel of a stream that goes on awaits bytes. -/
theorem State.awaitsBytes_of_empty {s : State} (hk : s.rxKind = .stream) (hbuf : s.rxbuf = [])
    (heos : s.rxEos = false) : s.AwaitsBytes := ⟨hk, heos, by rw [hbuf]; rfl⟩

/-- Feeding no bytes is doing nothing. -/
theorem State.AwaitsBytes.fed_nil {s : State} (h : s.AwaitsBytes) : s.Fed [] s where
  awaits := h
  rxbufCap := rfl
  rxbuf := by rw [List.append_nil, remainderOf_of_not_found h.notFound]
  rxout := by rw [List.append_nil, duePayloads_of_not_found _ false h.notFound]; simp

/-- R161: chunk boundaries carry no meaning. -/
theorem State.Fed.append {s t u : State} {c d : Bytes} (h : s.Fed c t) (h' : t.Fed d u) : s.Fed (c ++ d) u where
  awaits := h'.awaits
  rxbufCap := h'.rxbufCap.trans h.rxbufCap
  rxbuf := by rw [h'.rxbuf, h.rxbuf, remainderOf_append, List.append_assoc]
  rxout := by
    rw [h'.rxout, h.rxout, h.rxbuf, ← List.append_assoc s.rxbuf, duePayloads_append (s.rxbuf ++ c),
      List.map_append, List.append_assoc]

/-- R162, R166: while the stream goes on the drains do not change what is left of the buffer in the end. -/
theorem drainUntilNotFound_remainderOf (n : Nat) (s t : State) (hk : s.rxKind = .stream)
    (heos : s.rxEos = false) (h : drainUntilNotFound n s = .next t) :
    remainderOf t.rxbuf = remainderOf s.rxbuf := by
  induction n generalizing s with
  | zero => cases h; rfl
  | succ n ih =>
    obtain ⟨u, hu, hku⟩ := execRxDrain_stream s hk
    obtain ⟨-, ⟨hfound, rfl⟩ | ⟨-, heos', -⟩ | ⟨-, -, rfl⟩⟩ := execRxDrain_next s u hu
    · rw [drainUntilNotFound_of_found n hu rfl] at h
      rw [ih _ hku heos h, remainderOf_of_found (buf := s.rxbuf) (heos ▸ hfound), ← heos]
      rfl
    · exact absurd (heos'.symm.trans heos) nofun
    · rw [drainUntilNotFound_of_not_found n hu rfl] at h
      cases h
      rfl

/-- R161, R166: a feed whose push is accepted. -/
theorem rxFeed_fed (c : Bytes) (s : State) (h : s.acceptsBytes c = true) :
    ∃ t, rxFeed c s = .next t ∧ s.Fed c t := by
  obtain ⟨hk, heos, -⟩ := (s.acceptsBytes_iff c).1 h
  obtain ⟨rest, serial, hdrain, hnot, -⟩ := ((s.pushBytes c).respond .done).drainAll_delivers hk
  have hrest : rest = remainderOf (s.rxbuf ++ c) := by
    have hsame := drainUntilNotFound_remainderOf _ ((s.pushBytes c).respond .done) _ hk heos hdrain
    exact (remainderOf_of_not_found hnot).symm.trans hsame
  have hfeed := (rxFeed_accepted c s _ (receiveBytes_accepted c s h)).trans hdrain
  refine ⟨_, hfeed, ⟨hk, rfl, hnot⟩, rfl, hrest, ?_⟩
  rw [← heos]
  rfl

/-- R161, R166: the pushes of a list of feeds, one after the other. -/
theorem State.acceptsFeeds_cons {c : Bytes} {cs : List Bytes} {s t : State} (h : rxFeed c s = .next t) :
    s.acceptsFeeds (c :: cs) = (s.acceptsBytes c && t.acceptsFeeds cs) := by
  rw [State.acceptsFeeds, h]

/-- R166: the feeds of a list of chunks, one after the other. -/
theorem rxFeedAll_cons {c : Bytes} {cs : List Bytes} {s t : State} (h : rxFeed c s = .next t) :
    rxFeedAll (c :: cs) s = rxFeedAll cs t := by
  rw [rxFeedAll, h]

/-- R161, R166: feeds whose pushes are all accepted do what one feed of the joined chunks does. -/
theorem rxFeedAll_fed (chunks : List Bytes) (s : State) (hs : s.AwaitsBytes)
    (h : s.acceptsFeeds chunks = true) : ∃ t, rxFeedAll chunks s = .next t ∧ s.Fed chunks.flatten t := by
  induction chunks generalizing s with
  | nil => exact ⟨s, rfl, hs.fed_nil⟩
  | cons c cs ih =>
    have hc : s.acceptsBytes c = true := by
      rw [State.acceptsFeeds, Bool.and_eq_true] at h
      obtain ⟨hpush, -⟩ := h
      exact hpush
    obtain ⟨t, hfeed, hfed⟩ := rxFeed_fed c s hc
    rw [State.acceptsFeeds_cons hfeed, hc, Bool.true_and] at h
    obtain ⟨u, hfeeds, hfed'⟩ := ih t hfed.awaits h
    exact ⟨u, (rxFeedAll_cons hfeed).trans hfeeds, hfed.append hfed'⟩

/-- R161: an unbounded buffer has room for every chunk. -/
theorem State.acceptsFeeds_of_unbounded (chunks : List Bytes) (s : State) (hs : s.AwaitsBytes)
    (hcap : s.rxbufCap = none) : s.acceptsFeeds chunks = true := by
  induction chunks generalizing s with
  | nil => rfl
  | cons c cs ih =>
    have hc : s.acceptsBytes c = true :=
      (s.acceptsBytes_iff c).2 ⟨hs.stream, hs.goesOn, (s.fits_iff c).2 (by simp [hcap])⟩
    obtain ⟨t, hfeed, hfed⟩ := rxFeed_fed c s hc
    rw [State.acceptsFeeds_cons hfeed, hc, Bool.true_and]
    exact ih t hfed.awaits (hfed.rxbufCap.trans hcap)

/-- R166: from reset with an unbounded buffer the feeds of any chunks complete. -/
theorem rxFeedAll_fed_of_reset (tx : TransportKind) (port : List Beat) (chunks : List Bytes) :
    ∃ t, rxFeedAll chunks (State.resetWith tx .stream none port) = .next t ∧
      (State.resetWith tx .stream none port).Fed chunks.flatten t :=
  have hs := State.awaitsBytes_of_empty (s := State.resetWith tx .stream none port) rfl rfl rfl
  rxFeedAll_fed chunks _ hs (State.acceptsFeeds_of_unbounded chunks _ hs rfl)

/-! ## The close -/

/-- R167, R221: a close delivers what the end of the stream makes due and leaves the channel as reset does. -/
theorem rxClose_delivers (s : State) (hk : s.rxKind = .stream) :
    rxClose s = .next ((s.endStream.respond .done).drained [] Serial.reset) := by
  have heos : execRxEos s = .next (s.endStream.respond .done) := if_neg (by simp [hk])
  obtain ⟨rest, serial, hdrain, -, hclosed⟩ := (s.endStream.respond .done).drainAll_delivers hk
  obtain ⟨rfl, rfl⟩ := hclosed rfl
  rw [rxClose, heos, State.after_next, hdrain]

/-- R137, R167: feeds and a close deliver what is due in all of the stream at its end. -/
theorem rxClose_of_fed {s t : State} {c : Bytes} (h : s.Fed c t) :
    ∃ u, rxClose t = .next u ∧ u.rxout = s.rxout ++ (streamPayloads (s.rxbuf ++ c)).map recordOf := by
  have hdue : streamPayloads (s.rxbuf ++ c) = duePayloads (s.rxbuf ++ c) false ++ streamPayloads t.rxbuf := by
    have hsplit := duePayloads_append (s.rxbuf ++ c) [] true
    rwa [List.append_nil, List.append_nil, ← h.rxbuf] at hsplit
  refine ⟨_, rxClose_delivers t h.awaits.stream, ?_⟩
  rw [hdue, List.map_append, ← List.append_assoc, ← h.rxout]
  rfl

/-- The strings that a list of records delivers. -/
theorem map_raw_map_recordOf (ps : List Bytes) : (ps.map recordOf).map RxRecord.raw = ps := by
  rw [List.map_map]
  exact List.map_id ps

/-! ## The statements -/

/-- Settles O45: the close's drains end with the channel as reset leaves it. -/
theorem rxCloseDeliversEveryFrame : Obligations.RxCloseDeliversEveryFrame := fun s hk =>
  ⟨_, rxClose_delivers s hk, rfl, rfl, rfl, rfl, rfl, rfl, rfl⟩

/-- Settles O33: the feeds deliver what is due in the joined chunks, and leave what the close needs for the
rest. -/
theorem serialFormDeliversTheSamePayloads : Obligations.SerialFormDeliversTheSamePayloads := by
  intro chunks s hk hbuf heos
  have hs : s.AwaitsBytes := State.awaitsBytes_of_empty hk hbuf heos
  refine ⟨State.acceptsFeeds_of_unbounded chunks s hs, fun haccepted => ?_⟩
  obtain ⟨t, hfeeds, hfed⟩ := rxFeedAll_fed chunks s hs haccepted
  obtain ⟨u, hclose, hout⟩ := rxClose_of_fed hfed
  rw [hbuf] at hout
  exact ⟨t, u, hfeeds, hclose, hout⟩

/-- Settles O34: what the feeds deliver and leave depends on the joined chunks alone, and in a stream of frames
each marker makes the payload before it due. -/
theorem streamReassembly : Obligations.StreamReassembly := by
  intro tx port ps chunks hchunks
  refine ⟨?whole, fun done todo j _ _ hreached => ?part⟩
  case whole =>
    obtain ⟨t, hfeeds, hfed⟩ := rxFeedAll_fed_of_reset tx port chunks
    obtain ⟨u, hclose, hout⟩ := rxClose_of_fed hfed
    rw [hchunks] at hfed hout
    have hbuf : t.rxbuf = remainderOf (ps.flatMap frameBytes) := hfed.rxbuf
    refine ⟨t, u, hfeeds, hclose, ?_, ?_, fun p hp => ?_⟩
    · rw [hfed.rxout]
      exact (map_raw_map_recordOf _).trans (duePayloads_frames ps false)
    · rw [hout]
      exact (map_raw_map_recordOf _).trans (duePayloads_frames ps true)
    · obtain ⟨init, rfl⟩ := List.getLast?_eq_some_iff.1 hp
      rw [hbuf, remainderOf_frames]
  case part =>
    obtain ⟨t, hfeeds, hfed⟩ := rxFeedAll_fed_of_reset tx port done
    obtain ⟨more, hmore⟩ := hreached
    have hdue : duePayloads done.flatten false
        = ps.take j ++ duePayloads (Config.esc :: Config.stx :: more) false := by
      rw [← duePayloads_frames_append_marker, ← hmore, List.append_assoc]
      rfl
    refine ⟨t, hfeeds, _, hdue.symm.trans ?_⟩
    rw [hfed.rxout]
    exact (map_raw_map_recordOf _).symm

end Sys2Proof.Machine
end

section
/-! SUPPORT. The commands of the stream engine, one by one, and `SEND` (R160 to R165, R167). -/

namespace Sys2Proof.Machine

/-! ## What is sent -/

/-- R160: the write unit, by the kind of the transport. -/
theorem writeUnit_eq (kind : TransportKind) (b : Bytes) :
    writeUnit kind b = if kind = .stream then frameBytes b else b := by
  cases kind <;> rfl

section
variable {p : Packet} (s : State)

/-- R167: an image that leaves the codec is sent as `TX_SEND` sends it. -/
theorem sendPacket_of_ok {e : Bytes} (h : encodeImageBytes p = .ok e) :
    sendPacket p s = .next ((s.releaseStaging.transmit (writeUnit s.txKind e)).respond .done) := by
  rw [sendPacket, execEncode_eq, h]
  rfl

/-- R167: where there is no image nothing is sent. -/
theorem sendPacket_of_error {k : ErrorKind} (h : encodeImageBytes p = .error k) :
    sendPacket p s = .next (s.releaseStaging.respond (.error k)) := by
  rw [sendPacket, execEncode_eq, h]
  rfl

end

/-! ## Two pushes -/

section
variable (s : State) (c d : Bytes)

/-- R161: bytes in two parts fit exactly when the first fits and the second fits behind it. -/
theorem State.fits_append : s.fits (c ++ d) = true ↔ s.fits c = true ∧ (s.pushBytes c).fits d = true := by
  simp only [State.fits_iff, State.pushBytes_rxbufCap, State.pushBytes_rxbuf, List.length_append, Nat.add_assoc]
  exact ⟨fun h => ⟨fun cap hcap => by have := h cap hcap; omega, h⟩, fun ⟨_, hd⟩ => hd⟩

/-- R161: the joined bytes are accepted exactly when both parts are, one after the other. -/
theorem State.acceptsBytes_append :
    s.acceptsBytes (c ++ d) = true ↔ s.acceptsBytes c = true ∧ (s.pushBytes c).acceptsBytes d = true := by
  simp only [State.acceptsBytes_iff, State.fits_append]
  exact ⟨fun ⟨hk, he, hc, hd⟩ => ⟨⟨hk, he, hc⟩, hk, he, hd⟩,
    fun ⟨⟨hk, he, hc⟩, _, _, hd⟩ => ⟨hk, he, hc, hd⟩⟩

/-- R137, R161: the buffer and the scan state take in two parts as they take in the whole. -/
theorem State.pushBytes_append : s.pushBytes (c ++ d) = (s.pushBytes c).pushBytes d := by
  simp only [State.pushBytes, Serial.run_append, List.append_assoc]

end

/-! ## The other commands of the RX unit -/

section
variable (s : State)

/-- R162: a drain that finds no frame at the end of the stream empties the channel. -/
theorem execRxDrain_ended (hk : s.rxKind = .stream) (hfound : (deframeBytes s.rxbuf s.rxEos).found = false)
    (he : s.rxEos = true) : execRxDrain s = .next (s.emptyChannel.respond (.found false)) := by
  rw [execRxDrain, if_neg (by simp [hk]), if_neg (by simp [hfound]), if_pos he]

/-- R162: a drain that finds no frame while the stream goes on leaves the channel alone. -/
theorem execRxDrain_waits (hk : s.rxKind = .stream) (hfound : (deframeBytes s.rxbuf s.rxEos).found = false)
    (he : s.rxEos = false) : execRxDrain s = .next (s.respond (.found false)) := by
  rw [execRxDrain, if_neg (by simp [hk]), if_neg (by simp [hfound]), if_neg (by simp [he])]

/-- R163: in stream mode the end of the stream is noted. -/
theorem execRxEos_stream (hk : s.rxKind = .stream) : execRxEos s = .next (s.endStream.respond .done) := by
  rw [execRxEos, if_neg (by simp [hk])]

/-- R168: a datagram channel has no stream to end. -/
theorem execRxEos_datagram (hk : s.rxKind = .datagram) : execRxEos s = .refused .wrongTransportKind := by
  rw [execRxEos, if_pos hk]

/-- R164: in datagram mode a datagram is delivered whole. -/
theorem execRxDgram_datagram (d : Bytes) (hk : s.rxKind = .datagram) :
    execRxDgram d s = .next ((s.deliver d).respond .done) := by
  rw [execRxDgram, if_neg (by simp [hk])]

/-- R168: a stream channel takes no datagram. -/
theorem execRxDgram_stream (d : Bytes) (hk : s.rxKind = .stream) :
    execRxDgram d s = .refused .wrongTransportKind := by
  rw [execRxDgram, if_pos hk]

end

/-! ## The statements -/

/-- Settles O37: where the joined bytes are accepted both parts are, and they leave the same buffer and the same
scan state. -/
theorem chunkBoundariesCarryNoMeaning : Obligations.ChunkBoundariesCarryNoMeaning := by
  intro c d s u h
  obtain ⟨haccepted, rfl⟩ := receiveBytes_next (c ++ d) s u h
  obtain ⟨hc, hd⟩ := (s.acceptsBytes_append c d).1 haccepted
  refine ⟨(s.pushBytes c).respond .done, receiveBytes_accepted c s hc, ?_⟩
  rw [State.pushBytes_append]
  exact receiveBytes_accepted d ((s.pushBytes c).respond .done) hd

/-- Settles O35: the command appends the write unit of the transport's kind. -/
theorem txSendAppendsOneWriteUnit : Obligations.TxSendAppendsOneWriteUnit := by
  intro b s
  have hsend : exec (.txSend b) s = .next ((s.transmit (writeUnit s.txKind b)).respond .done) := rfl
  rw [hsend, writeUnit_eq]
  exact ⟨fun hk => by rw [if_pos hk]; rfl, fun hk => by rw [if_neg (by simp [hk])]; rfl⟩

/-- Settles O36: a push is its bytes reaching the RX unit. -/
theorem rxPushAppendsOrIsRefused : Obligations.RxPushAppendsOrIsRefused := fun c s =>
  ⟨fun hk he hroom => receiveBytes_accepted c s ((s.acceptsBytes_iff c).2 ⟨hk, he, (s.fits_iff c).2 hroom⟩),
    receiveBytes_datagram c s, receiveBytes_streamEnded c s, fun _ hk he => receiveBytes_bufferFull c s hk he⟩

/-- Settles O38, by what `DEFRAME` finds and whether the stream has ended. -/
theorem rxDrainDeliversOneFrame : Obligations.RxDrainDeliversOneFrame := by
  rintro s d rfl
  exact ⟨fun hk hfound => execRxDrain_found s _ hk rfl hfound, execRxDrain_ended s, execRxDrain_waits s,
    execRxDrain_datagram s⟩

/-- Settles O39, by the kind of the transport. -/
theorem rxEosSetsTheFlag : Obligations.RxEosSetsTheFlag := fun s =>
  ⟨execRxEos_stream s, execRxEos_datagram s⟩

/-- Settles O40, by the kind of the transport. -/
theorem rxDgramDeliversTheDatagram : Obligations.RxDgramDeliversTheDatagram := fun d s =>
  ⟨execRxDgram_datagram s d, execRxDgram_stream s d⟩

/-- Settles O41: the command is `emptyChannel` and a result, in every state. -/
theorem rxAbortEmptiesTheChannel : Obligations.RxAbortEmptiesTheChannel := fun s =>
  show execRxAbort s = .next (s.emptyChannel.respond .done) from rfl

/-- Settles O46: what `ENCODE` answers decides whether there is an image to send. -/
theorem sendTransmitsOnlyAnImage : Obligations.SendTransmitsOnlyAnImage := by
  refine fun p s => ⟨fun e he => ?_, fun k hk => sendPacket_of_error s hk⟩
  rw [sendPacket_of_ok s he, writeUnit_eq]
  rfl

end Sys2Proof.Machine
end

section
/-! SUPPORT. The status codes of the table, and which of them each instruction can answer (R190 to R197). -/

namespace Sys2Proof

/-- R190, the column "raised by": the statuses an instruction can answer. -/
def Instr.statuses : Instr → List (BitVec 4)
  | .encode _ => [0x0, 0x1, 0x6]
  | .decode _ => [0x0, 0x2, 0x3, 0x4, 0x5]
  | _ => [0x0]

/-- R190: an instruction that is neither `ENCODE` nor `DECODE` answers `OK`. -/
theorem Instr.statuses_eq_ok {i : Instr} (hencode : ∀ p, i ≠ .encode p) (hdecode : ∀ b, i ≠ .decode b) :
    i.statuses = [0x0] := by
  cases i with
  | encode p => exact absurd rfl (hencode p)
  | decode b => exact absurd rfl (hdecode b)
  | _ => rfl

/-- R197: the code of `ConnectionFailure` and the reserved codes are in no instruction's list. -/
theorem Instr.statuses_le_six (i : Instr) : ∀ st ∈ i.statuses, st.toNat ≤ 6 := by
  cases i with
  | encode | decode | _ => simp [Instr.statuses]

end Sys2Proof

namespace Sys2Proof.Machine

/-! ## The codec -/

/-- R100, R190: `ENCODE` answers an image or one of its two error kinds. -/
theorem status_ofEncode_mem (p : Packet) :
    (Response.ofEncode (encodeImageBytes p)).status ∈ [0x0, 0x1, 0x6] := by
  by_cases htexts : ∀ m ∈ p.messages, m.text.length ≤ 2048
  · rcases Nat.lt_or_ge 65535 (packetBody p).length with hlong | hfits
    · rw [encodeImageBytes_packetTooLong p htexts hlong]; decide
    · rw [encodeImageBytes_ok p htexts hfits]; exact List.mem_cons_self
  · rw [encodeImageBytes_textTooLong p (by simpa using htexts)]; decide

/-- R102, R190: `DECODE` answers a packet or one of its four error kinds. -/
theorem status_ofDecode_mem (b : Bytes) :
    (Response.ofDecode (decodeImageBytes b)).status ∈ [0x0, 0x2, 0x3, 0x4, 0x5] := by
  rcases decodeImageBytes_cases b with ⟨p, hok, -⟩ | herr | herr | herr | herr
  · rw [hok]; exact List.mem_cons_self
  all_goals rw [herr]; decide

/-! ## Every instruction -/

/-- An instruction that answers a next state leaves a result, with one of its statuses. -/
theorem exec_next_status {i : Instr} {s t : State} (h : exec i s = .next t) :
    ∃ r, t.response = some r ∧ r.status ∈ i.statuses := by
  have hpush : ∀ c, receiveBytes c s = .next t → ∃ r, t.response = some r ∧ r.status ∈ [0x0] := by
    intro c hc
    obtain ⟨-, rfl⟩ := receiveBytes_next c s t hc
    exact ⟨.done, rfl, List.mem_cons_self⟩
  cases i with
  | reserved0 => cases h
  | encode p =>
    rw [exec_encode] at h
    cases h
    exact ⟨_, rfl, status_ofEncode_mem p⟩
  | decode b =>
    rw [exec_decode] at h
    cases h
    exact ⟨_, rfl, status_ofDecode_mem b⟩
  | rxPush c => exact hpush c h
  | sof => exact hpush Config.marker h
  | escFe => exact hpush [Config.esc, Config.esc] h
  | lit x => exact hpush [x] h
  | loneFe => exact hpush [Config.esc] h
  | rxDrain =>
    obtain ⟨-, ⟨-, rfl⟩ | ⟨-, -, rfl⟩ | ⟨-, -, rfl⟩⟩ := execRxDrain_next s t h
    all_goals exact ⟨.found _, rfl, List.mem_cons_self⟩
  | rxEos =>
    replace h : execRxEos s = .next t := h
    cases hk : s.rxKind with
    | stream => rw [execRxEos_stream s hk] at h; cases h; exact ⟨.done, rfl, List.mem_cons_self⟩
    | datagram => rw [execRxEos_datagram s hk] at h; cases h
  | rxDgram d =>
    replace h : execRxDgram d s = .next t := h
    cases hk : s.rxKind with
    | stream => rw [execRxDgram_stream s d hk] at h; cases h
    | datagram => rw [execRxDgram_datagram s d hk] at h; cases h; exact ⟨.done, rfl, List.mem_cons_self⟩
  | frame | deframe | txSend | rxAbort | brightness | leftTally | textTally | rightTally | isControlData
  | packetFixed | messageFixed | controlWord | flags =>
    cases h
    exact ⟨_, rfl, List.mem_cons_self⟩

/-- Settles O51: the result's status is one of the instruction's, and each clause reads off that list. -/
theorem statusCodesAreTheTable : Obligations.StatusCodesAreTheTable := by
  refine ⟨rfl, fun i s t h => ?_⟩
  obtain ⟨r, hresponse, hstatus⟩ := exec_next_status h
  refine ⟨r, hresponse, i.statuses_le_six _ hstatus, fun hencode hdecode => ?others, ?encode, ?decode⟩
  case others =>
    rw [Instr.statuses_eq_ok hencode hdecode] at hstatus
    exact List.mem_singleton.1 hstatus
  case encode => rintro p rfl; exact hstatus
  case decode => rintro b rfl; exact hstatus

end Sys2Proof.Machine
end
